-- ==== Sys2Proof/Word.lean ====
section
/-! DEFINITION. The words of the DES engine: the fixed widths of 00_scope.md R8, and the standard's bit numbering
(R14, R15). Nothing here is signed and nothing carries (R17). -/

namespace Sys2Proof

/-- A 32-bit word: a host register, a Feistel half, one word of a subkey pair (R8, R22). -/
abbrev Word := BitVec 32

/-- One byte of the external byte form of a key or block (R54, R100). -/
abbrev Byte := BitVec 8

/-- A 64-bit key or block (R8). -/
abbrev Block := BitVec 64

/-- A 48-bit round subkey (R8, R197). -/
abbrev Subkey := BitVec 48

/-- One 28-bit half, C or D, of the key-schedule working value (R8, R192). -/
abbrev KeyHalf := BitVec 28

/-- A 6-bit S-box input or table index (R120, R130). -/
abbrev Group6 := BitVec 6

/-- `F_n(v, j) = v[n - j]`: standard (FIPS) bit `j`, counted from 1 at the most significant end (R15). -/
def stdBit {n : Nat} (v : BitVec n) (j : Nat) : Bool := v.getLsbD (n - j)

end Sys2Proof
end

