-- ==== Sys2Proof/Syntax.lean ====
section
/-! DEFINITION. The engine's three commands (30_encoding.md R71) and the language of host programs that drive it: host
accesses (R76), host lines and pseudo-instructions (R77, R78). -/

namespace Sys2Proof

/-- A command word's meaning: one constructor per row of spec/opcode_table.json (R71). A command carries no operand
(R74). -/
inductive Instr where
  /-- OP = 0b00, word 0x0000_0000 (R231). -/
  | nop
  /-- OP = 0b01, word 0x0000_0001 (R229). -/
  | encrypt
  /-- OP = 0b10, word 0x0000_0002 (R230). -/
  | decrypt
  deriving DecidableEq, Repr

/-- The eight host-visible registers (R22). -/
inductive RegName where
  | keyHi | keyLo | dinHi | dinLo | doutHi | doutLo | ctrl | status
  deriving DecidableEq, Repr

/-- The direction of a host access, with the data word of a write (R76). -/
inductive Dir where
  | read
  | write (data : Word)
  deriving DecidableEq, Repr

/-- One host access: the triple of R76, with the access's width in bytes, which R52 checks. `off` is the offset in the
64-byte window (R51). The data of a refused write is never looked at. notes/assumptions/10.md. -/
structure Access where
  dir   : Dir
  off   : Fin 64
  bytes : Nat
  deriving DecidableEq, Repr

/-- One operation of an encoded host program (R79): an access, or a POLL, which is "encoded as its repeated read". -/
inductive HostOp where
  | access (a : Access)
  /-- Read `off` until `(t & mask) = value` (R77). -/
  | poll (off : Fin 64) (mask value : Word)
  deriving DecidableEq, Repr

/-- `<reg>` in a host line: a register's name, or `@0xNN` for a raw offset (R77). -/
inductive RegRef where
  | reg (r : RegName)
  | raw (off : Nat)
  deriving DecidableEq, Repr

/-- A line of a host program: WR, RD, POLL (R77) and the pseudo-instructions (R78). The byte-string forms of LDKEY and
LDBLK "first form the 64-bit value" by R100. -/
inductive HostLine where
  | wr (r : RegRef) (imm : Word)
  | rd (r : RegRef) (name : String)
  | poll (r : RegRef) (mask value : Word)
  | nop
  | enc
  | dec
  | ldkey (k : Block)
  | ldblk (b : Block)
  | ldkeyBytes (b : Vector Byte 8)
  | ldblkBytes (b : Vector Byte 8)
  | wait
  | rdout (name : String)
  | clrst
  deriving DecidableEq, Repr

end Sys2Proof
end

