-- ==== Sys2Proof/WellFormed.lean ====
section
/-! DEFINITION. Which terms of the syntax the spec admits. A command carries no operand, so every command is well formed
(R74); a host line is well formed when its raw offset lies in the window (R76: "an integer 0..0x3F"). Alignment is not a
matter of form: a misaligned access is a legal line that the engine answers with a bus error (R52). -/

namespace Sys2Proof

/-- Every command is well formed: it has no operand and no immediate (R74). -/
def Instr.wf : Instr → Bool
  | .nop => true
  | .encrypt => true
  | .decrypt => true

/-- A raw offset must lie in the window (R76, R77). -/
def RegRef.wf : RegRef → Bool
  | .reg _ => true
  | .raw off => decide (off < 0x40)

/-- A line is well formed when its register reference is. -/
def HostLine.wf : HostLine → Bool
  | .wr r _ => r.wf
  | .rd r _ => r.wf
  | .poll r _ _ => r.wf
  | .nop => true
  | .enc => true
  | .dec => true
  | .ldkey _ => true
  | .ldblk _ => true
  | .ldkeyBytes _ => true
  | .ldblkBytes _ => true
  | .wait => true
  | .rdout _ => true
  | .clrst => true

end Sys2Proof
end

