-- ==== Sys2Proof/Decode.lean ====
section
/-! DEFINITION. The command decoder and encoder (30_encoding.md R70 to R73). The decoder is total on the 2^32 words and
rejects by name. -/

namespace Sys2Proof

/-- Why a word is ILLEGAL (R73). -/
inductive IllegalWord where
  /-- A RSVD bit is set. -/
  | reservedBits
  /-- OP = 0b11. -/
  | reservedOp
  deriving DecidableEq, Repr

/-- What the decoder reads from a word: a command, or ILLEGAL with the reason (R72). -/
inductive DecodedCmd where
  | command (i : Instr)
  | illegal (why : IllegalWord)
  deriving DecidableEq, Repr

/-- The field OP, bits [1:0] (R70). -/
def opField (v : Word) : BitVec 2 := v.extractLsb' 0 2

/-- The field RSVD, bits [31:2] (R70). -/
def rsvdField (v : Word) : BitVec 30 := v.extractLsb' 2 30

/-- The command that a value of OP selects, with RSVD = 0 (R71). -/
def decodeOp (op : BitVec 2) : DecodedCmd :=
  if op = 0b00 then .command .nop
  else if op = 0b01 then .command .encrypt
  else if op = 0b10 then .command .decrypt
  else .illegal .reservedOp

/-- `decode_cmd` (R72). -/
def decodeCmd (v : Word) : DecodedCmd :=
  if rsvdField v = 0 then decodeOp (opField v) else .illegal .reservedBits

/-- The OP value of a command (R71). -/
def opOf : Instr → BitVec 2
  | .nop => 0b00
  | .encrypt => 0b01
  | .decrypt => 0b10

/-- The command word of a command: RSVD = 0 above OP (R70, R71). -/
def encode (i : Instr) : Word := (0#30 ++ opOf i : BitVec 32)

/-- The command of a decoding, if it is one. -/
def DecodedCmd.toOption : DecodedCmd → Option Instr
  | .command i => some i
  | .illegal _ => none

/-- The instruction the decoder reads from a table word of `nbits` bits, its higher bits 0. A command is one 32-bit
write, seen as one value (R55, R70), so no byte order enters; no command is longer than 32 bits (R75).
notes/assumptions/14.md. -/
def decodeTableWord (nbits w : Nat) : Option Instr :=
  if nbits ≤ 32 then (decodeCmd (BitVec.ofNat 32 (w % 2 ^ nbits))).toOption else none

end Sys2Proof
end

