-- ==== Sys2Proof/Config.lean ====
section
/-! DEFINITION. What the platform or the implementation fixes, and the one free value of the spec. Every constant here is
opaque: no proof can see its value, so a claim holds whatever it is. -/

namespace Sys2Proof

/-- `draw32()` (R18): the word a read of UNSPEC data returns. The spec leaves it free, "under no law, a fresh draw at
each use"; the draw number is the machine's counter `State.draws`. FREE VALUE: notes/assumptions/5.md. -/
opaque Config.draw32 : Nat → Word

/-- Which 0x40-byte block of the host bus the window lies in; R10 leaves `DES_BASE` to the platform. -/
opaque Config.desBaseBlock : Nat

/-- `DES_BASE` (R10): the bus address of offset 0x00, a multiple of 0x40. notes/assumptions/8.md. -/
def Config.desBase : Nat := 0x40 * Config.desBaseBlock

/-- One less than the latency; R13 leaves `DES_LATENCY` to the implementation. -/
opaque Config.desLatencyLessOne : Nat

/-- `DES_LATENCY` (R13, R302): at least 1, the same for every key, block and mode. "No rule of the model reads it";
neither does any definition of this model. notes/assumptions/9.md. -/
def Config.desLatency : Nat := Config.desLatencyLessOne + 1

end Sys2Proof
end

