-- ==== Sys2Proof/Machine/State.lean ====
section
/-! DEFINITION. The machine's state: the engine's record of 10_state.md R40, whole, and what the other two agents of R7
need for their turns (the host's program and what it has received, and the order in which the agents move). -/

namespace Sys2Proof.Machine

/-- `lmode` (R35): the latched operation. -/
inductive Mode where
  | enc
  | dec
  deriving DecidableEq, Repr

/-- `EngineState` (R40): every piece of state the spec gives the engine; "nothing else is state". CTRL keeps no value
(R29) and the STATUS word is assembled from its fields (R34). -/
structure EngineState where
  /-- KEY_HI, KEY_LO (R23, R24). -/
  keyHi   : Word
  keyLo   : Word
  /-- DIN_HI, DIN_LO (R25, R26). -/
  dinHi   : Word
  dinLo   : Word
  /-- DOUT_HI, DOUT_LO (R27, R28); `none` is the spec's UNSPEC (R40). -/
  doutHi  : Option Word
  doutLo  : Option Word
  /-- STATUS.BUSY, DONE, ERR, ERRCODE (R30 to R33). -/
  busy    : Bool
  done    : Bool
  err     : Bool
  errcode : BitVec 2
  /-- The in-flight latch (R35). -/
  lkey    : Block
  lblk    : Block
  lmode   : Mode
  deriving DecidableEq, Repr

/-- The reset state of every field (R290, R291). -/
def EngineState.reset : EngineState where
  keyHi   := 0
  keyLo   := 0
  dinHi   := 0
  dinLo   := 0
  doutHi  := some 0
  doutLo  := some 0
  busy    := false
  done    := false
  err     := false
  errcode := 0b00
  lkey    := 0
  lblk    := 0
  lmode   := .enc

/-- The three agents that act on the engine's state (R7). -/
inductive Agent where
  | host
  | engine
  | reset
  deriving DecidableEq, Repr

/-- What the host receives for one access. notes/assumptions/4.md. -/
inductive Response where
  /-- The word a legal read returns (R220). -/
  | data (w : Word)
  /-- A legal write was performed; "a write returns nothing" (R220). -/
  | written
  /-- The error response for the address at this offset; a read's data word comes with it (R261). -/
  | busError (off : Fin 64) (data : Option Word)
  deriving DecidableEq, Repr

/-- The reasons for which the machine stops: there is none. R260: the engine's two error mechanisms neither stop the
host nor the engine; a bus error is a response (R261) and a rejected command is recorded (R263). Safe: nothing raises a
fault. notes/assumptions/16.md. -/
inductive Fault where
  deriving DecidableEq, Repr

/-- Refusals. -/
inductive Refusal where
  /-- Raised by an arm of `exec` whose command has no meaning yet; no arm does. Safe. -/
  | notModelled (mnemonic : String)
  deriving DecidableEq, Repr

/-- The whole machine. `engine` is the spec's record (R40); the other four fields are the model's own
(notes/assumptions/1.md, 3.md, 4.md, 5.md). -/
structure State where
  /-- The engine (R40). -/
  engine    : EngineState
  /-- The accesses the host has still to make, the next one first (R76, R79). -/
  program   : List HostOp
  /-- Which agent moves next, and after it: one total order (R60). When it is empty the engine moves if BUSY = 1, and
  the host otherwise. -/
  schedule  : List Agent
  /-- What the host has received, the newest first. -/
  responses : List Response
  /-- How many draws of `draw32()` have been made. -/
  draws     : Nat
  deriving DecidableEq, Repr

/-- The machine right after reset (R290, R291), with no program, no schedule and no response (notes/assumptions/20.md). -/
def State.reset : State where
  engine    := EngineState.reset
  program   := []
  schedule  := []
  responses := []
  draws     := 0

/-- The three outcomes of a step of this machine. -/
abbrev Result := Host.Outcome State Fault Refusal

end Sys2Proof.Machine
end

