-- ==== Sys2Proof/Machine/Flags.lean ====
section
/-! DEFINITION. The STATUS fields: the word a read returns (R34), the write-1-to-clear rule (R235) and the recording of a
command error (60_exceptions.md R262 to R264). -/

namespace Sys2Proof.Machine

/-- ERRCODE 0b01, ILLEGAL_COMMAND (R262). -/
def illegalCommand : BitVec 2 := 0b01

/-- ERRCODE 0b10, BUSY_COMMAND (R262). -/
def busyCommand : BitVec 2 := 0b10

/-- `{26'b0, ERRCODE, 1'b0, ERR, DONE, BUSY}` (R34, R234). -/
def EngineState.statusWord (e : EngineState) : Word :=
  (0#26 ++ e.errcode ++ 0#1 ++ BitVec.ofBool e.err ++ BitVec.ofBool e.done ++ BitVec.ofBool e.busy : BitVec 32)

/-- `data[1] = 1` clears DONE (R235). -/
def EngineState.clearDone (e : EngineState) (data : Word) : EngineState :=
  { e with done := e.done && !data.getLsbD 1 }

/-- `data[2] = 1` clears ERR and ERRCODE in the same step (R235, R265). -/
def EngineState.clearErr (e : EngineState) (data : Word) : EngineState :=
  if data.getLsbD 2 then { e with err := false, errcode := 0b00 } else e

/-- A write of STATUS; bits [0], [3] and [31:4] of the data are ignored (R235). -/
def EngineState.writeStatus (e : EngineState) (data : Word) : EngineState := (e.clearDone data).clearErr data

/-- `record_error(code)`: the first error since ERR was last cleared keeps its code (R263, R264). Nothing else changes;
this is all that a rejected command does. -/
def EngineState.recordError (e : EngineState) (code : BitVec 2) : EngineState :=
  { e with err := true, errcode := if e.err then e.errcode else code }

end Sys2Proof.Machine
end

