-- ==== Sys2Proof/Machine/Bits.lean ====
section
/-! DEFINITION. The bit-vector operations of 00_scope.md section 6: the table permutation (R16) and the rotations
(R17). -/

namespace Sys2Proof.Machine

/-- `Permute(T, v, n)` (R16): standard bit `i` of the result is standard bit `T[i]` of `v`. `T`'s first printed entry is
`T[1]`, which is index 0 here. -/
def permute {m n : Nat} (T : Vector Nat m) (v : BitVec n) : BitVec m :=
  BitVec.ofFnBE fun i => stdBit v (T.get i)

/-- `rotl_n(v, s)` (R17). -/
def rotl {n : Nat} (v : BitVec n) (s : Nat) : BitVec n := (v <<< s) ||| (v >>> (n - s))

/-- `rotr_n(v, s) = rotl_n(v, n - s)` (R17). -/
def rotr {n : Nat} (v : BitVec n) (s : Nat) : BitVec n := rotl v (n - s)

/-- The high 32 bits of a block, `v[63:32]`. -/
def hiWord (v : Block) : Word := v.extractLsb' 32 32

/-- The low 32 bits of a block, `v[31:0]`. -/
def loWord (v : Block) : Word := v.extractLsb' 0 32

end Sys2Proof.Machine
end

