-- ==== Sys2Proof/Machine/Permutation.lean ====
section
/-! DEFINITION. The initial permutation and its inverse (R102, R103), in the table form that R107 makes the definition,
and the butterfly network that R105 and R106 give as a realisation of them. The tables are the standard's
(notes/assumptions/11.md). -/

namespace Sys2Proof.Machine

/-- The table IP, row by row (R102). -/
def ipTable : Vector Nat 64 :=
  #v[58, 50, 42, 34, 26, 18, 10, 2,
    60, 52, 44, 36, 28, 20, 12, 4,
    62, 54, 46, 38, 30, 22, 14, 6,
    64, 56, 48, 40, 32, 24, 16, 8,
    57, 49, 41, 33, 25, 17, 9, 1,
    59, 51, 43, 35, 27, 19, 11, 3,
    61, 53, 45, 37, 29, 21, 13, 5,
    63, 55, 47, 39, 31, 23, 15, 7]

/-- The table IP^-1, row by row (R103). -/
def fpTable : Vector Nat 64 :=
  #v[40, 8, 48, 16, 56, 24, 64, 32,
    39, 7, 47, 15, 55, 23, 63, 31,
    38, 6, 46, 14, 54, 22, 62, 30,
    37, 5, 45, 13, 53, 21, 61, 29,
    36, 4, 44, 12, 52, 20, 60, 28,
    35, 3, 43, 11, 51, 19, 59, 27,
    34, 2, 42, 10, 50, 18, 58, 26,
    33, 1, 41, 9, 49, 17, 57, 25]

/-- `forwardPermute`, the initial permutation IP (R102). -/
def ip (v : Block) : Block := permute ipTable v

/-- `inversePermute`, the inverse initial permutation FP (R103). -/
def fp (v : Block) : Block := permute fpTable v

/-- `swap(a, b, n, m)` (R105): exchange the bits of `b` selected by `m` with those of `a` selected by `m << n`. -/
def swapBits (a b : Word) (n : Nat) (m : Word) : Word × Word :=
  let t := ((a >>> n) ^^^ b) &&& m
  (a ^^^ (t <<< n), b ^^^ t)

/-- `ip_net(v)` (R105). -/
def ipNet (v : Block) : Block :=
  let (l, r) := swapBits (hiWord v) (loWord v) 4 0x0F0F0F0F
  let (l, r) := swapBits l r 16 0x0000FFFF
  let (r, l) := swapBits r l 2 0x33333333
  let (r, l) := swapBits r l 8 0x00FF00FF
  let (l, r) := swapBits l r 1 0x55555555
  l ++ r

/-- `fp_net(v)` (R106): the steps of `ipNet` in reverse order. -/
def fpNet (v : Block) : Block :=
  let (l, r) := swapBits (hiWord v) (loWord v) 1 0x55555555
  let (r, l) := swapBits r l 8 0x00FF00FF
  let (r, l) := swapBits r l 2 0x33333333
  let (l, r) := swapBits l r 16 0x0000FFFF
  let (l, r) := swapBits l r 4 0x0F0F0F0F
  l ++ r

end Sys2Proof.Machine
end

