-- ==== Sys2Proof/Machine/KeySchedule.lean ====
section
/-! DEFINITION. The key schedule generator (44_key_schedule.md R190 to R199). PC1 and PC2 are the standard's
(notes/assumptions/11.md). -/

namespace Sys2Proof.Machine

/-- The table PC1, row by row (R191). -/
def pc1Table : Vector Nat 56 :=
  #v[57, 49, 41, 33, 25, 17, 9,
    1, 58, 50, 42, 34, 26, 18,
    10, 2, 59, 51, 43, 35, 27,
    19, 11, 3, 60, 52, 44, 36,
    63, 55, 47, 39, 31, 23, 15,
    7, 62, 54, 46, 38, 30, 22,
    14, 6, 61, 53, 45, 37, 29,
    21, 13, 5, 28, 20, 12, 4]

/-- The table PC2, row by row (R196). -/
def pc2Table : Vector Nat 48 :=
  #v[14, 17, 11, 24, 1, 5,
    3, 28, 15, 6, 21, 10,
    23, 19, 12, 4, 26, 8,
    16, 7, 27, 20, 13, 2,
    41, 52, 31, 37, 47, 55,
    30, 40, 51, 45, 33, 48,
    44, 49, 39, 56, 34, 53,
    46, 42, 50, 36, 29, 32]

/-- The subkey pair `(k0, k1)`: a 48-bit round subkey packed for the round function (R198). -/
structure SubkeyPair where
  k0 : Word
  k1 : Word
  deriving DecidableEq, Repr

/-- `cd0 = Permute(PC1, key, 64)`, the 56-bit working value (R191). -/
def pc1 (key : Block) : BitVec 56 := permute pc1Table key

/-- The rotation schedule `v_1 .. v_16` (R193). -/
def rotations : Vector Nat 16 := #v[1, 1, 2, 2, 2, 2, 2, 2, 1, 2, 2, 2, 2, 2, 2, 1]

/-- `v_i` for `i` = 1..16 (R193); 0 outside that range. -/
def rotationAmount (i : Nat) : Nat := (0 :: rotations.toList).getD i 0

/-- `C_i`: `C0 = cd0[55:28]` (R192), `C_i = rotl_28(C_{i-1}, v_i)` (R194). -/
def cHalf (key : Block) : Nat → KeyHalf
  | 0 => (pc1 key).extractLsb' 28 28
  | i + 1 => rotl (cHalf key i) (rotationAmount (i + 1))

/-- `D_i`: `D0 = cd0[27:0]` (R192), `D_i = rotl_28(D_{i-1}, v_i)` (R194). -/
def dHalf (key : Block) : Nat → KeyHalf
  | 0 => (pc1 key).extractLsb' 0 28
  | i + 1 => rotl (dHalf key i) (rotationAmount (i + 1))

/-- `K_i = Permute(PC2, {C_i, D_i}, 56)` (R196, R197). -/
def roundKey (key : Block) (i : Nat) : Subkey := permute pc2Table (cHalf key i ++ dHalf key i : BitVec 56)

/-- The 6-bit group `g_j = k[53 - 6j : 48 - 6j]`, j = 1..8 (R151, R198). -/
def keyGroup (k : Subkey) (j : Nat) : Group6 := k.extractLsb' (48 - 6 * j) 6

/-- One word of a pair: four groups, each in bits [5:0] of a byte, bits [7:6] zero (R198). -/
def packGroups (a b c d : Group6) : Word := (0#2 ++ a ++ 0#2 ++ b ++ 0#2 ++ c ++ 0#2 ++ d : BitVec 32)

/-- `pack(k)`: the odd groups in `k0`, the even groups in `k1` (R198, 90_conflicts.md C5). -/
def pack (k : Subkey) : SubkeyPair where
  k0 := packGroups (keyGroup k 1) (keyGroup k 3) (keyGroup k 5) (keyGroup k 7)
  k1 := packGroups (keyGroup k 2) (keyGroup k 4) (keyGroup k 6) (keyGroup k 8)

/-- `deriveSchedule(key)`: `sched[i] = pack(K_{i+1})` for i = 0..15 (R199, 90_conflicts.md C8). -/
def deriveSchedule (key : Block) : Vector SubkeyPair 16 :=
  (Vector.range 16).map fun i => pack (roundKey key (i + 1))

end Sys2Proof.Machine
end

