-- ==== Sys2Proof/Machine/SBoxes.lean ====
section
/-! DEFINITION. The standard's S-boxes and the permutation P (41_sp_table.md R120 to R129). They are the reference from
which the combined table is generated (R130); the engine holds only the combined table (R37). The numbers are the
standard's (notes/assumptions/11.md). -/

namespace Sys2Proof.Machine

/-- S-box S1, rows 0..3 (R121). -/
def s1Table : Vector (Vector Nat 16) 4 :=
  #v[#v[14, 4, 13, 1, 2, 15, 11, 8, 3, 10, 6, 12, 5, 9, 0, 7],
    #v[0, 15, 7, 4, 14, 2, 13, 1, 10, 6, 12, 11, 9, 5, 3, 8],
    #v[4, 1, 14, 8, 13, 6, 2, 11, 15, 12, 9, 7, 3, 10, 5, 0],
    #v[15, 12, 8, 2, 4, 9, 1, 7, 5, 11, 3, 14, 10, 0, 6, 13]]

/-- S-box S2, rows 0..3 (R122). -/
def s2Table : Vector (Vector Nat 16) 4 :=
  #v[#v[15, 1, 8, 14, 6, 11, 3, 4, 9, 7, 2, 13, 12, 0, 5, 10],
    #v[3, 13, 4, 7, 15, 2, 8, 14, 12, 0, 1, 10, 6, 9, 11, 5],
    #v[0, 14, 7, 11, 10, 4, 13, 1, 5, 8, 12, 6, 9, 3, 2, 15],
    #v[13, 8, 10, 1, 3, 15, 4, 2, 11, 6, 7, 12, 0, 5, 14, 9]]

/-- S-box S3, rows 0..3 (R123). -/
def s3Table : Vector (Vector Nat 16) 4 :=
  #v[#v[10, 0, 9, 14, 6, 3, 15, 5, 1, 13, 12, 7, 11, 4, 2, 8],
    #v[13, 7, 0, 9, 3, 4, 6, 10, 2, 8, 5, 14, 12, 11, 15, 1],
    #v[13, 6, 4, 9, 8, 15, 3, 0, 11, 1, 2, 12, 5, 10, 14, 7],
    #v[1, 10, 13, 0, 6, 9, 8, 7, 4, 15, 14, 3, 11, 5, 2, 12]]

/-- S-box S4, rows 0..3 (R124). -/
def s4Table : Vector (Vector Nat 16) 4 :=
  #v[#v[7, 13, 14, 3, 0, 6, 9, 10, 1, 2, 8, 5, 11, 12, 4, 15],
    #v[13, 8, 11, 5, 6, 15, 0, 3, 4, 7, 2, 12, 1, 10, 14, 9],
    #v[10, 6, 9, 0, 12, 11, 7, 13, 15, 1, 3, 14, 5, 2, 8, 4],
    #v[3, 15, 0, 6, 10, 1, 13, 8, 9, 4, 5, 11, 12, 7, 2, 14]]

/-- S-box S5, rows 0..3 (R125). -/
def s5Table : Vector (Vector Nat 16) 4 :=
  #v[#v[2, 12, 4, 1, 7, 10, 11, 6, 8, 5, 3, 15, 13, 0, 14, 9],
    #v[14, 11, 2, 12, 4, 7, 13, 1, 5, 0, 15, 10, 3, 9, 8, 6],
    #v[4, 2, 1, 11, 10, 13, 7, 8, 15, 9, 12, 5, 6, 3, 0, 14],
    #v[11, 8, 12, 7, 1, 14, 2, 13, 6, 15, 0, 9, 10, 4, 5, 3]]

/-- S-box S6, rows 0..3 (R126). -/
def s6Table : Vector (Vector Nat 16) 4 :=
  #v[#v[12, 1, 10, 15, 9, 2, 6, 8, 0, 13, 3, 4, 14, 7, 5, 11],
    #v[10, 15, 4, 2, 7, 12, 9, 5, 6, 1, 13, 14, 0, 11, 3, 8],
    #v[9, 14, 15, 5, 2, 8, 12, 3, 7, 0, 4, 10, 1, 13, 11, 6],
    #v[4, 3, 2, 12, 9, 5, 15, 10, 11, 14, 1, 7, 6, 0, 8, 13]]

/-- S-box S7, rows 0..3 (R127). -/
def s7Table : Vector (Vector Nat 16) 4 :=
  #v[#v[4, 11, 2, 14, 15, 0, 8, 13, 3, 12, 9, 7, 5, 10, 6, 1],
    #v[13, 0, 11, 7, 4, 9, 1, 10, 14, 3, 5, 12, 2, 15, 8, 6],
    #v[1, 4, 11, 13, 12, 3, 7, 14, 10, 15, 6, 8, 0, 5, 9, 2],
    #v[6, 11, 13, 8, 1, 4, 10, 7, 9, 5, 0, 15, 14, 2, 3, 12]]

/-- S-box S8, rows 0..3 (R128). -/
def s8Table : Vector (Vector Nat 16) 4 :=
  #v[#v[13, 2, 8, 4, 6, 15, 11, 1, 10, 9, 3, 14, 5, 0, 12, 7],
    #v[1, 15, 13, 8, 10, 3, 7, 4, 12, 5, 6, 11, 0, 14, 9, 2],
    #v[7, 11, 4, 1, 9, 12, 14, 2, 0, 6, 10, 13, 15, 3, 5, 8],
    #v[2, 1, 14, 7, 4, 10, 8, 13, 15, 12, 9, 0, 3, 5, 6, 11]]

/-- S-box `g + 1` for `g` in 0..7. -/
def sTable : Fin 8 → Vector (Vector Nat 16) 4
  | 0 => s1Table
  | 1 => s2Table
  | 2 => s3Table
  | 3 => s4Table
  | 4 => s5Table
  | 5 => s6Table
  | 6 => s7Table
  | 7 => s8Table

/-- The row, the 2-bit number `b1 b6`: `2*x[5] + x[0]` (R120). -/
def sRow (x : Group6) : BitVec 2 := (x.extractLsb' 5 1 ++ x.extractLsb' 0 1 : BitVec 2)

/-- The column, the 4-bit number `b2 b3 b4 b5`: `x[4:1]` (R120). -/
def sCol (x : Group6) : BitVec 4 := x.extractLsb' 1 4

/-- `S_{g+1}(x)` (R120). -/
def sBox (g : Fin 8) (x : Group6) : BitVec 4 :=
  BitVec.ofNat 4 (((sTable g).get (sRow x).toFin).get (sCol x).toFin)

/-- The table P, row by row (R129). -/
def pTable : Vector Nat 32 :=
  #v[16, 7, 20, 21, 29, 12, 28, 17,
    1, 15, 23, 26, 5, 18, 31, 10,
    2, 8, 24, 14, 32, 27, 3, 9,
    19, 13, 30, 6, 22, 11, 4, 25]

/-- `P(s)`, the output permutation of the round (R129). -/
def pPermute (s : Word) : Word := permute pTable s

end Sys2Proof.Machine
end

