-- ==== Sys2Proof/Machine/Round.lean ====
section
/-! DEFINITION. The round function: the engine's datapath (R152), which the machine runs, and the standard's round
function (R150, R151), its reference. The index is bits [5:0] of each byte, and step (2) uses the rotated value
(90_conflicts.md C1, C2). -/

namespace Sys2Proof.Machine

/-- The table E, row by row (R150). -/
def eTable : Vector Nat 48 :=
  #v[32, 1, 2, 3, 4, 5,
    4, 5, 6, 7, 8, 9,
    8, 9, 10, 11, 12, 13,
    12, 13, 14, 15, 16, 17,
    16, 17, 18, 19, 20, 21,
    20, 21, 22, 23, 24, 25,
    24, 25, 26, 27, 28, 29,
    28, 29, 30, 31, 32, 1]

/-- `E(r)` (R150). -/
def expand (r : Word) : Subkey := permute eTable r

/-- The eight 4-bit S-box outputs side by side, S1's in s[31:28] (R129, R151). -/
def joinNibbles (y : Fin 8 → BitVec 4) : Word :=
  (y 0 ++ y 1 ++ y 2 ++ y 3 ++ y 4 ++ y 5 ++ y 6 ++ y 7 : BitVec 32)

/-- The reference round function `f(r, k)` (R151). -/
def fRound (r : Word) (k : Subkey) : Word :=
  let x := expand r ^^^ k
  pPermute (joinNibbles fun g => sBox g (keyGroup x (g.val + 1)))

/-- Step (1) of the datapath: `x = rotl_32(right, 1)` (R152). -/
def roundX (right : Word) : Word := rotl right 1

/-- Step (2), the first intermediate: `a = rotr_32(x, 4) ^ k0` (R152). -/
def roundA (right : Word) (kp : SubkeyPair) : Word := rotr (roundX right) 4 ^^^ kp.k0

/-- Step (2), the second intermediate: `b = x ^ k1` (R152). -/
def roundB (right : Word) (kp : SubkeyPair) : Word := roundX right ^^^ kp.k1

/-- Step (3): the index of table `t`, bits [5:0] of one byte of `a` (t even) or `b` (t odd) (R152, R153). -/
def lookupIndex (right : Word) (kp : SubkeyPair) : Fin 8 → Group6
  | 0 => (roundA right kp).extractLsb' 24 6
  | 1 => (roundB right kp).extractLsb' 24 6
  | 2 => (roundA right kp).extractLsb' 16 6
  | 3 => (roundB right kp).extractLsb' 16 6
  | 4 => (roundA right kp).extractLsb' 8 6
  | 5 => (roundB right kp).extractLsb' 8 6
  | 6 => (roundA right kp).extractLsb' 0 6
  | 7 => (roundB right kp).extractLsb' 0 6

/-- The lookup of table `t` (R152, step (3)). -/
def lookup (right : Word) (kp : SubkeyPair) (t : Fin 8) : Word := sp t (lookupIndex right kp t)

/-- `roundOutput(right, (k0, k1))`: the OR of the eight lookups (R152, R155). -/
def roundOutput (right : Word) (kp : SubkeyPair) : Word :=
  lookup right kp 0 ||| lookup right kp 1 ||| lookup right kp 2 ||| lookup right kp 3 ||| lookup right kp 4 |||
    lookup right kp 5 ||| lookup right kp 6 ||| lookup right kp 7

end Sys2Proof.Machine
end

