-- ==== Sys2Proof/Machine/Feistel.lean ====
section
/-! DEFINITION. The Feistel network and the block functions (43_feistel.md R170 to R176), and the textbook DES of the
standard (R2, R151, R174), which no step runs: it is the reference the engine's function is held to. -/

namespace Sys2Proof.Machine

/-- The two 32-bit halves of a permuted block (R170). -/
structure Halves where
  left  : Word
  right : Word
  deriving DecidableEq, Repr

/-- `L0 = v[63:32]`, `R0 = v[31:0]` (R170). -/
def splitBlock (v : Block) : Halves := { left := hiWord v, right := loWord v }

/-- One round: `(R, L ^ roundOutput(R, kp))` (R171). -/
def feistelRound (h : Halves) (kp : SubkeyPair) : Halves :=
  { left := h.right, right := h.left ^^^ roundOutput h.right kp }

/-- The final placement `{R16, L16}` (R174, 90_conflicts.md C3). -/
def joinSwapped (h : Halves) : Block := (h.right ++ h.left : BitVec 64)

/-- The rounds for a list of subkey pairs, the first pair first (R172). -/
def runRounds (pairs : List SubkeyPair) (v : Block) : Block := joinSwapped (pairs.foldl feistelRound (splitBlock v))

/-- `encryptBlock(sched, v)`: 16 rounds in forward subkey order (R172). -/
def encryptBlock (sched : Vector SubkeyPair 16) (v : Block) : Block := runRounds sched.toList v

/-- `decryptBlock(sched, v)`: the same with `sched[15 - i]` in round i (R173). -/
def decryptBlock (sched : Vector SubkeyPair 16) (v : Block) : Block := runRounds sched.toList.reverse v

/-- `DES_Encrypt(key, block)` (R175). -/
def desEncrypt (key block : Block) : Block := fp (encryptBlock (deriveSchedule key) (ip block))

/-- `DES_Decrypt(key, block)` (R176). -/
def desDecrypt (key block : Block) : Block := fp (decryptBlock (deriveSchedule key) (ip block))

/-- The standard's halves after `i` rounds: `(L, R)` becomes `(R, L ^ f(R, K))`, with the subkey `keys i` in round `i`
(R151, R171). -/
def standardHalves (keys : Nat → Subkey) (v : Block) : Nat → Halves
  | 0 => splitBlock v
  | i + 1 =>
    let h := standardHalves keys v i
    { left := h.right, right := h.left ^^^ fRound h.right (keys (i + 1)) }

/-- The standard's block function for a sequence of subkeys: IP, 16 rounds, the preoutput R16 L16, IP^-1 (R2, R174). -/
def standardCipher (keys : Nat → Subkey) (block : Block) : Block :=
  fp (joinSwapped (standardHalves keys (ip block) 16))

end Sys2Proof.Machine
end

