-- ==== Sys2Proof/Machine/Operands.lean ====
section
/-! DEFINITION. Where an operation's operands come from and where its result goes (30_encoding.md R74), and the register
map of the window (R22). -/

namespace Sys2Proof.Machine

/-- `key = {reg[KEY_HI], reg[KEY_LO]}` (R74). -/
def EngineState.key (e : EngineState) : Block := (e.keyHi ++ e.keyLo : BitVec 64)

/-- `block = {reg[DIN_HI], reg[DIN_LO]}` (R74). -/
def EngineState.din (e : EngineState) : Block := (e.dinHi ++ e.dinLo : BitVec 64)

/-- The result of an operation with these latched values (R175, R176, R237). It depends on nothing else (R65). -/
def desResult (mode : Mode) (key block : Block) : Block :=
  match mode with
  | .enc => desEncrypt key block
  | .dec => desDecrypt key block

/-- `reg[DOUT_HI] = result[63:32]`, `reg[DOUT_LO] = result[31:0]` (R74). -/
def EngineState.setDout (e : EngineState) (result : Block) : EngineState :=
  { e with doutHi := some (hiWord result), doutLo := some (loWord result) }

/-- The offset of a register in the window (R22). -/
def regOffset : RegName → Fin 64
  | .keyHi  => 0x00
  | .keyLo  => 0x04
  | .dinHi  => 0x08
  | .dinLo  => 0x0C
  | .doutHi => 0x10
  | .doutLo => 0x14
  | .ctrl   => 0x18
  | .status => 0x1C

/-- The register at an offset (R22); the other offsets hold none, 0x20 to 0x3C being reserved (R53). -/
def regAt (off : Fin 64) : Option RegName :=
  match off.val with
  | 0x00 => some .keyHi
  | 0x04 => some .keyLo
  | 0x08 => some .dinHi
  | 0x0C => some .dinLo
  | 0x10 => some .doutHi
  | 0x14 => some .doutLo
  | 0x18 => some .ctrl
  | 0x1C => some .status
  | _ => none

/-- `access_ok(off, n)`: the only legal access is an aligned 32-bit one (R52). -/
def accessOk (off : Fin 64) (n : Nat) : Bool := decide (n = 4 ∧ off.val % 4 = 0)

/-- The access that a bus request at address `a` makes, for a window at `base`; a request outside the window does not
reach the engine (R51). -/
def accessAt (base : Nat) (dir : Dir) (a n : Nat) : Option Access :=
  if h : base ≤ a ∧ a < base + 0x40 then some { dir := dir, off := ⟨a - base, by omega⟩, bytes := n } else none

/-- The bus address of an offset, for a window at `base` (R51, R76). -/
def busAddress (base : Nat) (off : Fin 64) : Nat := base + off.val

end Sys2Proof.Machine
end

