-- ==== Sys2Proof/Machine/Ops.lean ====
section
/-! DEFINITION. The shared operations: the engine's acceptance, rejection and completion of a command (R229, R233, R237),
reset (R290), the draw of a free word (R18), and the reads and the writes of single registers (45_commands.md). The
engine has no trap (R269, R270): its two error mechanisms are `State.reject`, which records a command error (R263), and
`State.busError`, the error response (R261). -/

namespace Sys2Proof.Machine

/-- The machine with another engine state. -/
def State.withEngine (s : State) (e : EngineState) : State := { s with engine := e }

/-- The machine after the host has received a response. -/
def State.respond (s : State) (r : Response) : State := { s with responses := r :: s.responses }

/-- The free word that the next `draw32()` returns (R18). -/
def State.drawn (s : State) : Word := Config.draw32 s.draws

/-- The machine after one `draw32()`: the next draw is a fresh one (R18). -/
def State.afterDraw (s : State) : State := { s with draws := s.draws + 1 }

/-- Acceptance of a command: latch KEY, DIN and the mode, set BUSY, clear DONE, DOUT becomes UNSPEC (R229, R230). -/
def EngineState.accept (e : EngineState) (mode : Mode) : EngineState :=
  { e with
    lkey := e.key, lblk := e.din, lmode := mode
    busy := true, done := false
    doutHi := none, doutLo := none }

/-- `complete()`, the engine agent's only step (R237). -/
def EngineState.complete (e : EngineState) : EngineState :=
  { e.setDout (desResult e.lmode e.lkey e.lblk) with busy := false, done := true }

/-- A command is rejected with a cause (R232, R233). -/
def State.reject (s : State) (code : BitVec 2) : State := s.withEngine (s.engine.recordError code)

/-- ENCRYPT or DECRYPT written to CTRL: rejected while BUSY = 1, else accepted (R228). -/
def State.startOperation (s : State) (mode : Mode) : State :=
  if s.engine.busy then s.reject busyCommand else s.withEngine (s.engine.accept mode)

/-- The reset agent's step: every field of the engine takes its reset value (R290, R291). The host is another agent (R7):
its program and what it has received stay. notes/assumptions/19.md. -/
def State.resetEngine (s : State) : State := s.withEngine EngineState.reset

/-- The engine agent's turn: `complete()` where it is enabled (BUSY = 1), else nothing (R237).
notes/assumptions/2.md. -/
def State.engineTurn (s : State) : State := if s.engine.busy then s.withEngine s.engine.complete else s

/-- A read of a DOUT register: `draw32()` while it is UNSPEC (R225). -/
def State.readDout (s : State) (d : Option Word) : Word × State :=
  match d with
  | some w => (w, s)
  | none => (s.drawn, s.afterDraw)

/-- A legal read of a register (R221, R223, R225, R227, R234). -/
def State.readReg (s : State) (r : RegName) : Word × State :=
  match r with
  | .keyHi  => (s.engine.keyHi, s)
  | .keyLo  => (s.engine.keyLo, s)
  | .dinHi  => (s.engine.dinHi, s)
  | .dinLo  => (s.engine.dinLo, s)
  | .doutHi => s.readDout s.engine.doutHi
  | .doutLo => s.readDout s.engine.doutLo
  | .ctrl   => (0x00000000, s)
  | .status => (s.engine.statusWord, s)

/-- A legal read at an offset; a reserved offset reads as zero (R53, R236). -/
def State.readOffset (s : State) (off : Fin 64) : Word × State :=
  match regAt off with
  | some r => s.readReg r
  | none => (0x00000000, s)

/-- A legal write of a register other than CTRL (R222, R224, R226, R235). -/
def EngineState.writeReg (e : EngineState) (r : RegName) (data : Word) : EngineState :=
  match r with
  | .keyHi  => { e with keyHi := data }
  | .keyLo  => { e with keyLo := data }
  | .dinHi  => { e with dinHi := data }
  | .dinLo  => { e with dinLo := data }
  | .doutHi => e
  | .doutLo => e
  | .ctrl   => e
  | .status => e.writeStatus data

/-- `raise BusError(a)`: no engine state changes; the host receives the error response, with `draw32()` as the data of a
read (R261). -/
def State.busError (s : State) (dir : Dir) (off : Fin 64) : State :=
  match dir with
  | .read => s.afterDraw.respond (.busError off (some s.drawn))
  | .write _ => s.respond (.busError off none)

end Sys2Proof.Machine
end

