-- ==== Sys2Proof/Machine/Commands.lean ====
section
/-! DEFINITION. The meanings of the three commands (45_commands.md section 4), one definition each. -/

namespace Sys2Proof.Machine

/-- NOP: "no state changes", in every state (R231). -/
def execNop (s : State) : Result := .next s

/-- ENCRYPT (R228, R229, R233). -/
def execEncrypt (s : State) : Result := .next (s.startOperation .enc)

/-- DECRYPT (R228, R230, R233). -/
def execDecrypt (s : State) : Result := .next (s.startOperation .dec)

end Sys2Proof.Machine
end

