-- ==== Sys2Proof/Machine/HostAccess.lean ====
section
/-! DEFINITION. The host access step (R220), the command register (R228), and the host's turn: one operation of its
program (R76, R77). -/

namespace Sys2Proof.Machine

/-- A write of CTRL: the word is decoded, a command runs, an illegal word is recorded (R228, R232). The legality of the
word is checked before BUSY (R266). -/
def ctrlWrite (data : Word) (s : State) : Result :=
  match decodeCmd data with
  | .command i => exec i s
  | .illegal _ => .next (s.reject illegalCommand)

/-- A legal write at an offset; a write of a reserved offset is ignored (R53, R236). -/
def writeOffset (off : Fin 64) (data : Word) (s : State) : Result :=
  match regAt off with
  | some .ctrl => ctrlWrite data s
  | some r => .next (s.withEngine (s.engine.writeReg r data))
  | none => .next s

/-- A read access: the word the host receives and the machine after it (R220, R261). -/
def hostRead (off : Fin 64) (n : Nat) (s : State) : Word × State :=
  if accessOk off n then
    let (w, t) := s.readOffset off
    (w, t.respond (.data w))
  else (s.drawn, s.busError .read off)

/-- A write access (R220, R261). -/
def hostWrite (off : Fin 64) (n : Nat) (data : Word) (s : State) : Result :=
  if accessOk off n then writeOffset off data (s.respond .written)
  else .next (s.busError (.write data) off)

/-- `host_access` (R220), for an access that reached the window. -/
def hostAccess (a : Access) (s : State) : Result :=
  match a.dir with
  | .read => .next (hostRead a.off a.bytes s).2
  | .write data => hostWrite a.off a.bytes data s

/-- `host_access(dir, a, n, data)` at a bus address, for a window at `base` (R220). An address outside the window does not
reach the engine (R51). -/
def busAccess (base : Nat) (dir : Dir) (a n : Nat) (s : State) : Result :=
  match accessAt base dir a n with
  | some acc => hostAccess acc s
  | none => .next s

/-- `MemRead(addr, 4)` at a window at `base` (R18): the word the engine returns, and the machine after it. -/
def memRead (base a n : Nat) (s : State) : Option (Word × State) :=
  (accessAt base .read a n).map fun acc => hostRead acc.off n s

/-- `MemWrite(addr, 4, v)` at a window at `base` (R18). -/
def memWrite (base a n : Nat) (v : Word) (s : State) : Result := busAccess base (.write v) a n s

/-- One read of a POLL: the poll ends when `(t & mask) = value`, and is the host's next operation again otherwise (R77).
notes/assumptions/7.md. -/
def hostPoll (off : Fin 64) (mask value : Word) (rest : List HostOp) (s : State) : Result :=
  let (w, t) := hostRead off 4 s
  if w &&& mask = value then .next { t with program := rest } else .next t

/-- The host's turn: its next operation, or nothing when its program has ended. notes/assumptions/3.md. -/
def hostTurn (s : State) : Result :=
  match s.program with
  | [] => .next s
  | .access a :: rest => hostAccess a { s with program := rest }
  | .poll off mask value :: rest => hostPoll off mask value rest s

end Sys2Proof.Machine
end

