-- ==== Sys2Proof/Machine/Step.lean ====
section
/-! DEFINITION. One step of the machine: one turn of one agent, in the one total order of R60, and where the step finds its
next command. -/

namespace Sys2Proof.Machine

/-- The turn of an agent (R7): the host's next operation (R220), the engine's completion (R237), or reset (R290). -/
def turn (a : Agent) (s : State) : Result :=
  match a with
  | .host => hostTurn s
  | .engine => .next s.engineTurn
  | .reset => .next s.resetEngine

/-- The agent that moves when the schedule is empty: the engine while an operation is in flight, so that no run leaves
BUSY = 1 forever (the weak fairness of R237), and otherwise the host. notes/assumptions/1.md. -/
def defaultAgent (s : State) : Agent := if s.engine.busy then .engine else .host

/-- One step: the next agent of the schedule takes its turn (R60, R267). notes/assumptions/21.md. -/
def step (s : State) : Host.Outcome State Fault Refusal :=
  match s.schedule with
  | a :: rest => turn a { s with schedule := rest }
  | [] => turn (defaultAgent s) s

/-- The access that issues a command word: a write of CTRL (R70). -/
def commandAccess (v : Word) : Access := { dir := .write v, off := regOffset .ctrl, bytes := 4 }

/-- The word of a table row, its bits above `nbits` zero, issued by the host as the very next step: it is the host's next
access and the host is the next agent. notes/assumptions/3.md. -/
def State.withFetchWord (s : State) (nbits w : Nat) : State :=
  { s with
    program := .access (commandAccess (BitVec.ofNat 32 (w % 2 ^ nbits))) :: s.program
    schedule := .host :: s.schedule }

end Sys2Proof.Machine
end

