-- ==== Sys2Proof/Machine/BitIO.lean ====
section
/-! DEFINITION. Bit I/O: the byte form of a 64-bit value at the external boundary, big-endian (R54, R100, R101). The
engine carries 64-bit values as two words; the host converts (R101, 90_conflicts.md C4). -/

namespace Sys2Proof.Machine

/-- `blockFromBytes` (R100): byte 0 is the most significant. -/
def blockFromBytes (b : Vector Byte 8) : Block :=
  (b[0] ++ b[1] ++ b[2] ++ b[3] ++ b[4] ++ b[5] ++ b[6] ++ b[7] : BitVec 64)

/-- Byte `i` of `bytesFromBlock(v)`: `v[63 - 8i : 56 - 8i]` (R101). -/
def blockByte (v : Block) (i : Nat) : Byte := v.extractLsb' (56 - 8 * i) 8

/-- `bytesFromBlock` (R101). -/
def bytesFromBlock (v : Block) : Vector Byte 8 :=
  #v[blockByte v 0, blockByte v 1, blockByte v 2, blockByte v 3, blockByte v 4, blockByte v 5, blockByte v 6,
    blockByte v 7]

end Sys2Proof.Machine
end

