-- ==== Sys2Proof/Machine/Program.lean ====
section
/-! DEFINITION. Host programs: the expansion of host lines and pseudo-instructions into the host's accesses (30_encoding.md
R76 to R79). -/

namespace Sys2Proof.Machine

/-- The offset that `<reg>` names (R77), none for a raw offset outside the window. -/
def refOffset : RegRef → Option (Fin 64)
  | .reg r => some (regOffset r)
  | .raw off => if h : off < 0x40 then some ⟨off, h⟩ else none

/-- `WR`: `MemWrite(DES_BASE + off, 4, imm)` (R77). -/
def wrOp (off : Fin 64) (imm : Word) : HostOp := .access { dir := .write imm, off := off, bytes := 4 }

/-- `RD`: `MemRead(DES_BASE + off, 4)` (R77). -/
def rdOp (off : Fin 64) : HostOp := .access { dir := .read, off := off, bytes := 4 }

/-- `LDKEY k` (R78). -/
def ldkeyOps (k : Block) : List HostOp := [wrOp (regOffset .keyHi) (hiWord k), wrOp (regOffset .keyLo) (loWord k)]

/-- `LDBLK b` (R78). -/
def ldblkOps (b : Block) : List HostOp := [wrOp (regOffset .dinHi) (hiWord b), wrOp (regOffset .dinLo) (loWord b)]

/-- The encoding of one line (R78, R79); none for an ill-formed line. -/
def lineOps : HostLine → Option (List HostOp)
  | .wr r imm => (refOffset r).map fun off => [wrOp off imm]
  | .rd r _ => (refOffset r).map fun off => [rdOp off]
  | .poll r mask value => (refOffset r).map fun off => [.poll off mask value]
  | .nop => some [wrOp (regOffset .ctrl) 0x00000000]
  | .enc => some [wrOp (regOffset .ctrl) 0x00000001]
  | .dec => some [wrOp (regOffset .ctrl) 0x00000002]
  | .ldkey k => some (ldkeyOps k)
  | .ldblk b => some (ldblkOps b)
  | .ldkeyBytes b => some (ldkeyOps (blockFromBytes b))
  | .ldblkBytes b => some (ldblkOps (blockFromBytes b))
  | .wait => some [.poll (regOffset .status) 0x00000001 0x00000000]
  | .rdout _ => some [rdOp (regOffset .doutHi), rdOp (regOffset .doutLo)]
  | .clrst => some [wrOp (regOffset .status) 0x00000006]

/-- The encoding of a host program: the list of its accesses, line by line (R79). -/
def assemble : List HostLine → Option (List HostOp)
  | [] => some []
  | l :: rest =>
    match lineOps l, assemble rest with
    | some ops, some more => some (ops ++ more)
    | _, _ => none

end Sys2Proof.Machine
end

