-- ==== Sys2Proof/Safety.lean ====
section
/-! DEFINITION. The terms in which the claims speak of the machine: the invariant of 10_state.md R41, who moves next and
with which access, and what "unchanged" means for each group of the engine's registers. -/

namespace Sys2Proof

open Sys2Proof.Machine

/-- The invariants of R41: its four items, in its order. -/
structure EngineInv (e : EngineState) : Prop where
  busy_dout : e.busy = true → e.done = false ∧ e.doutHi = none ∧ e.doutLo = none
  idle_dout : e.busy = false → e.doutHi.isSome = true ∧ e.doutLo.isSome = true
  err_code : e.err = false ↔ e.errcode = 0b00
  code_legal : e.errcode ≠ 0b11

/-- The invariant of the whole machine: its engine's (R41). The other fields are the model's own and carry none. -/
def MachineInv (s : State) : Prop := EngineInv s.engine

/-- While DONE = 1, DOUT holds the result of the latched operation (R31, R60 item 3). -/
def DoneInv (e : EngineState) : Prop :=
  e.done = true →
    e.doutHi = some (hiWord (desResult e.lmode e.lkey e.lblk)) ∧
    e.doutLo = some (loWord (desResult e.lmode e.lkey e.lblk))

/-- The agent that the next step moves (R60): the schedule's next, or the default agent when it is empty. -/
def mover (s : State) : Agent :=
  match s.schedule with
  | a :: _ => a
  | [] => defaultAgent s

/-- The aligned 32-bit read of a register. -/
def readAccess (r : RegName) : Access := { dir := .read, off := regOffset r, bytes := 4 }

/-- The aligned 32-bit write of a register. -/
def writeAccess (r : RegName) (data : Word) : Access := { dir := .write data, off := regOffset r, bytes := 4 }

/-- The next step is the host's aligned 32-bit write of `data` to the register `r`. -/
def HostWrites (s : State) (r : RegName) (data : Word) : Prop :=
  mover s = .host ∧ ∃ rest, s.program = .access (writeAccess r data) :: rest

/-- The machine once the host's next access has been taken from its program and answered `written`, before its effect. -/
def delivered (s : State) (rest : List HostOp) : State :=
  { s with program := rest, schedule := s.schedule.tail, responses := .written :: s.responses }

/-- KEY and DIN are the same. -/
def SameInputs (e f : EngineState) : Prop :=
  f.keyHi = e.keyHi ∧ f.keyLo = e.keyLo ∧ f.dinHi = e.dinHi ∧ f.dinLo = e.dinLo

/-- DOUT is the same. -/
def SameOutput (e f : EngineState) : Prop := f.doutHi = e.doutHi ∧ f.doutLo = e.doutLo

/-- The in-flight latch is the same. -/
def SameLatch (e f : EngineState) : Prop := f.lkey = e.lkey ∧ f.lblk = e.lblk ∧ f.lmode = e.lmode

/-- BUSY and DONE are the same. -/
def SameProgress (e f : EngineState) : Prop := f.busy = e.busy ∧ f.done = e.done

/-- ERR and ERRCODE are the same. -/
def SameError (e f : EngineState) : Prop := f.err = e.err ∧ f.errcode = e.errcode

/-- Everything outside the engine is the same. -/
def SameHost (s t : State) : Prop :=
  t.program = s.program ∧ t.schedule = s.schedule ∧ t.responses = s.responses ∧ t.draws = s.draws

end Sys2Proof
end

