-- ==== Sys2Proof/Certificates/Slice0/Obligations.lean ====
section
/-! DEFINITION. The statements for the provers. Each docstring names the rule it formalises; OBLIGATIONS.json lists them. -/

open Sys2Proof Sys2Proof.Machine

/-! ## Encoding -/

/-- R72: the decoder on all 2^32 words. -/
def Obligations.ExactlyThreeWordsDecode : Prop :=
  ∀ v : Word,
    (decodeCmd v = .command .nop ↔ v = 0x00000000) ∧
    (decodeCmd v = .command .encrypt ↔ v = 0x00000001) ∧
    (decodeCmd v = .command .decrypt ↔ v = 0x00000002) ∧
    ((∃ why, decodeCmd v = .illegal why) ↔ v ≠ 0x00000000 ∧ v ≠ 0x00000001 ∧ v ≠ 0x00000002)

/-- R70 to R72: decoding and encoding are inverse, in both directions; the decoder of table words agrees. -/
def Obligations.DecodeEncodeAgree : Prop :=
  ∀ (i : Instr) (v : Word), i.wf = true →
    (decodeCmd v = .command i ↔ v = encode i) ∧ decodeTableWord 32 (encode i).toNat = some i

/-- R71, R232: words written out from the opcode map, and four that are illegal. -/
def Obligations.SampleWordsDecode : Prop :=
  decodeCmd 0b00000000000000000000000000000000#32 = .command .nop ∧
  decodeCmd 0b00000000000000000000000000000001#32 = .command .encrypt ∧
  decodeCmd 0b00000000000000000000000000000010#32 = .command .decrypt ∧
  decodeCmd 0b00000000000000000000000000000011#32 = .illegal .reservedOp ∧
  decodeCmd 0b00000000000000000000000000000101#32 = .illegal .reservedBits ∧
  decodeCmd 0b10000000000000000000000000000001#32 = .illegal .reservedBits ∧
  decodeCmd 0b11111111111111111111111111111111#32 = .illegal .reservedBits

/-- R78: the pseudo-instructions encode as the lines of their expansions, which `HostLinesEncodeAsTriples` pins down. The
names of an RD or an RDOUT line, and so `r = {r_hi, r_lo}`, are dropped in the encoding (notes/assumptions/18.md). -/
def Obligations.PseudoInstructionsExpand : Prop :=
  lineOps .nop = lineOps (.wr (.reg .ctrl) 0x00000000) ∧
  lineOps .enc = lineOps (.wr (.reg .ctrl) 0x00000001) ∧
  lineOps .dec = lineOps (.wr (.reg .ctrl) 0x00000002) ∧
  (∀ k : Block, lineOps (.ldkey k) =
    assemble [.wr (.reg .keyHi) (k.extractLsb' 32 32), .wr (.reg .keyLo) (k.extractLsb' 0 32)]) ∧
  (∀ b : Block, lineOps (.ldblk b) =
    assemble [.wr (.reg .dinHi) (b.extractLsb' 32 32), .wr (.reg .dinLo) (b.extractLsb' 0 32)]) ∧
  lineOps .wait = lineOps (.poll (.reg .status) 0x00000001 0x00000000) ∧
  (∀ r hi lo, lineOps (.rdout r) = assemble [.rd (.reg .doutHi) hi, .rd (.reg .doutLo) lo]) ∧
  lineOps .clrst = lineOps (.wr (.reg .status) 0x00000006) ∧
  (∀ b : Vector Byte 8, lineOps (.ldkeyBytes b) = lineOps (.ldkey (blockFromBytes b))) ∧
  (∀ b : Vector Byte 8, lineOps (.ldblkBytes b) = lineOps (.ldblk (blockFromBytes b)))

/-- R76, R77, R79: the triples that WR, RD and POLL lines encode as, by register name and by raw offset, with the two
examples of R79; a program encodes as its lines' operations in order. That an RD's name is dropped and that a line with a raw
offset outside the window has no encoding is notes/assumptions/18.md; that a POLL is one operation is
notes/assumptions/7.md. -/
def Obligations.HostLinesEncodeAsTriples : Prop :=
  (∀ (r : RegName) (imm : Word),
    lineOps (.wr (.reg r) imm) = some [.access { dir := .write imm, off := regOffset r, bytes := 4 }]) ∧
  (∀ (r : RegName) (name : String),
    lineOps (.rd (.reg r) name) = some [.access { dir := .read, off := regOffset r, bytes := 4 }]) ∧
  (∀ (r : RegName) (mask value : Word),
    lineOps (.poll (.reg r) mask value) = some [.poll (regOffset r) mask value]) ∧
  (∀ (off : Fin 64) (imm mask value : Word) (name : String),
    lineOps (.wr (.raw off.val) imm) = some [.access { dir := .write imm, off := off, bytes := 4 }] ∧
    lineOps (.rd (.raw off.val) name) = some [.access { dir := .read, off := off, bytes := 4 }] ∧
    lineOps (.poll (.raw off.val) mask value) = some [.poll off mask value]) ∧
  (∀ (n : Nat) (imm mask value : Word) (name : String), 0x40 ≤ n →
    lineOps (.wr (.raw n) imm) = none ∧ lineOps (.rd (.raw n) name) = none ∧
    lineOps (.poll (.raw n) mask value) = none) ∧
  lineOps .enc = some [.access { dir := .write 0x00000001, off := 0x18, bytes := 4 }] ∧
  lineOps .wait = some [.poll 0x1C 0x00000001 0x00000000] ∧
  ∀ lines : List HostLine, assemble lines = (lines.mapM lineOps).map List.flatten

/-! ## Commands -/

/-- R60, R70, R228: when the host's next access writes a word that decodes to a command, the step runs that command, on
the machine from which the access has been taken. -/
def Obligations.StepRunsDecodedCommand : Prop :=
  ∀ (s : State) (v : Word) (i : Instr) (rest : List HostOp),
    mover s = .host → s.program = .access (writeAccess .ctrl v) :: rest → decodeCmd v = .command i →
    step s = exec i (delivered s rest)

/-- The word a table row gives is the very next one run: `withFetchWord` issues it (notes/assumptions/3.md). -/
def Obligations.FetchWordRunsNext : Prop :=
  ∀ (s : State) (w : Nat) (i : Instr), decodeTableWord 32 w = some i →
    step (s.withFetchWord 32 w) = exec i (s.respond .written)

/-- R231: NOP, in every state. -/
def Obligations.NopChangesNothing : Prop :=
  decodeCmd 0x00000000 = .command .nop ∧ ∀ s : State, exec .nop s = .next s

/-- R229: an accepted ENCRYPT latches its operands, sets BUSY, clears DONE and makes DOUT UNSPEC; nothing else changes;
its result appears at completion. -/
def Obligations.EncryptAccepted : Prop :=
  decodeCmd 0x00000001 = .command .encrypt ∧
  ∀ s : State, s.engine.busy = false →
    exec .encrypt s = .next { s with engine := { s.engine with
      lkey := (s.engine.keyHi ++ s.engine.keyLo : BitVec 64), lblk := (s.engine.dinHi ++ s.engine.dinLo : BitVec 64),
      lmode := .enc, busy := true, done := false, doutHi := none, doutLo := none } } ∧
    ∀ t : State, exec .encrypt s = .next t →
      t.engineTurn.engine.doutHi = some (hiWord (desEncrypt s.engine.key s.engine.din)) ∧
      t.engineTurn.engine.doutLo = some (loWord (desEncrypt s.engine.key s.engine.din))

/-- R230: an accepted DECRYPT, as R229 with the other mode. -/
def Obligations.DecryptAccepted : Prop :=
  decodeCmd 0x00000002 = .command .decrypt ∧
  ∀ s : State, s.engine.busy = false →
    exec .decrypt s = .next { s with engine := { s.engine with
      lkey := (s.engine.keyHi ++ s.engine.keyLo : BitVec 64), lblk := (s.engine.dinHi ++ s.engine.dinLo : BitVec 64),
      lmode := .dec, busy := true, done := false, doutHi := none, doutLo := none } } ∧
    ∀ t : State, exec .decrypt s = .next t →
      t.engineTurn.engine.doutHi = some (hiWord (desDecrypt s.engine.key s.engine.din)) ∧
      t.engineTurn.engine.doutLo = some (loWord (desDecrypt s.engine.key s.engine.din))

/-- R233: ENCRYPT or DECRYPT while BUSY = 1 records BUSY_COMMAND and changes nothing else; the operation in flight then
completes with its latched operands. -/
def Obligations.CommandWhileBusyRejected : Prop :=
  ∀ (s : State) (i : Instr), i = .encrypt ∨ i = .decrypt → s.engine.busy = true →
    exec i s = .next { s with engine := { s.engine with
      err := true, errcode := if s.engine.err = true then s.engine.errcode else 0b10 } } ∧
    ∀ t : State, exec i s = .next t →
      SameOutput s.engine.complete t.engineTurn.engine ∧ SameProgress s.engine.complete t.engineTurn.engine

/-- R232: a word with a RSVD bit set or OP = 0b11 written to CTRL records ILLEGAL_COMMAND and changes nothing else. -/
def Obligations.IllegalCommandRecorded : Prop :=
  ∀ (s : State) (v : Word) (rest : List HostOp),
    mover s = .host → s.program = .access (writeAccess .ctrl v) :: rest →
    v.extractLsb' 2 30 ≠ 0 ∨ v.extractLsb' 0 2 = 0b11 →
    step s = .next { delivered s rest with engine := { s.engine with
      err := true, errcode := if s.engine.err = true then s.engine.errcode else 0b01 } }

/-- The frame of the three commands: KEY, DIN and everything outside the engine stay; NOP and a command rejected while busy
leave the latch, DOUT, BUSY and DONE; a command accepted leaves ERR and ERRCODE; NOP leaves them too. -/
def Obligations.CommandFrame : Prop :=
  ∀ (i : Instr) (s t : State), exec i s = .next t →
    SameInputs s.engine t.engine ∧ SameHost s t ∧
    (i = .nop ∨ s.engine.busy = true →
      SameLatch s.engine t.engine ∧ SameOutput s.engine t.engine ∧ SameProgress s.engine t.engine) ∧
    (i = .nop ∨ s.engine.busy = false → SameError s.engine t.engine)

/-! ## Host accesses -/

/-- R221, R223: KEY and DIN read back, in every state (the register, not the latch), and the read has no side effect;
they read 0 after reset. -/
def Obligations.InputRegistersReadBack : Prop :=
  ∀ s : State,
    hostAccess (readAccess .keyHi) s = .next (s.respond (.data s.engine.keyHi)) ∧
    hostAccess (readAccess .keyLo) s = .next (s.respond (.data s.engine.keyLo)) ∧
    hostAccess (readAccess .dinHi) s = .next (s.respond (.data s.engine.dinHi)) ∧
    hostAccess (readAccess .dinLo) s = .next (s.respond (.data s.engine.dinLo)) ∧
    (s.engine = EngineState.reset → ∀ r : RegName, r = .keyHi ∨ r = .keyLo ∨ r = .dinHi ∨ r = .dinLo →
      hostAccess (readAccess r) s = .next (s.respond (.data 0x00000000))) ∧
    ∀ (r : RegName) (d : Word) (t : State), r = .keyHi ∨ r = .keyLo ∨ r = .dinHi ∨ r = .dinLo →
      hostAccess (writeAccess r d) s = .next t → hostAccess (readAccess r) t = .next (t.respond (.data d))

/-- R222, R224: a write of KEY or DIN stores the word in every state and changes nothing else, the latch included. -/
def Obligations.InputRegisterWritesStore : Prop :=
  ∀ (s : State) (d : Word),
    hostAccess (writeAccess .keyHi d) s =
      .next { s.respond .written with engine := { s.engine with keyHi := d } } ∧
    hostAccess (writeAccess .keyLo d) s =
      .next { s.respond .written with engine := { s.engine with keyLo := d } } ∧
    hostAccess (writeAccess .dinHi d) s =
      .next { s.respond .written with engine := { s.engine with dinHi := d } } ∧
    hostAccess (writeAccess .dinLo d) s =
      .next { s.respond .written with engine := { s.engine with dinLo := d } }

/-- R60, item 1: after a step that writes a word to KEY or DIN, and any number of steps of which none is a reset or a write
of the same register, a read of the register returns that word. The write itself leaves the three other input registers, DOUT,
the latch and the flags. `run` lists the states of the run. -/
def Obligations.ReadAfterWriteReturnsWritten : Prop :=
  ∀ (r : RegName) (d : Word), r = .keyHi ∨ r = .keyLo ∨ r = .dinHi ∨ r = .dinLo →
    (∀ (run : Nat → State) (k : Nat),
      (∀ i ≤ k, step (run i) = .next (run (i + 1))) →
      HostWrites (run 0) r d →
      (∀ i, 1 ≤ i → i ≤ k → mover (run i) ≠ .reset ∧ ∀ d', ¬ HostWrites (run i) r d') →
      hostAccess (readAccess r) (run (k + 1)) = .next ((run (k + 1)).respond (.data d))) ∧
    ∀ s t : State, hostAccess (writeAccess r d) s = .next t →
      SameOutput s.engine t.engine ∧ SameLatch s.engine t.engine ∧ SameProgress s.engine t.engine ∧
      SameError s.engine t.engine ∧
      ∀ r' : RegName, r' ≠ r → r' = .keyHi ∨ r' = .keyLo ∨ r' = .dinHi ∨ r' = .dinLo →
        (t.readReg r').1 = (s.readReg r').1

/-- R225: a read of DOUT returns its value, or the free word of this draw while it is UNSPEC; the next draw is another
(the counter of draws is the model's, notes/assumptions/5.md). -/
def Obligations.DoutReadsOrDraws : Prop :=
  ∀ s : State,
    (∀ w, s.engine.doutHi = some w → hostAccess (readAccess .doutHi) s = .next (s.respond (.data w))) ∧
    (∀ w, s.engine.doutLo = some w → hostAccess (readAccess .doutLo) s = .next (s.respond (.data w))) ∧
    (s.engine.doutHi = none → hostAccess (readAccess .doutHi) s =
      .next { s with responses := .data (Config.draw32 s.draws) :: s.responses, draws := s.draws + 1 }) ∧
    (s.engine.doutLo = none → hostAccess (readAccess .doutLo) s =
      .next { s with responses := .data (Config.draw32 s.draws) :: s.responses, draws := s.draws + 1 })

/-- R226, R227, R236: writes of DOUT are ignored, CTRL reads 0, and the reserved offsets read 0 and ignore writes. -/
def Obligations.AccessesWithoutEffect : Prop :=
  ∀ (s : State) (d : Word) (off : Fin 64),
    hostAccess (writeAccess .doutHi d) s = .next (s.respond .written) ∧
    hostAccess (writeAccess .doutLo d) s = .next (s.respond .written) ∧
    hostAccess (readAccess .ctrl) s = .next (s.respond (.data 0x00000000)) ∧
    (0x20 ≤ off.val → off.val % 4 = 0 →
      hostAccess { dir := .read, off := off, bytes := 4 } s = .next (s.respond (.data 0x00000000)) ∧
      hostAccess { dir := .write d, off := off, bytes := 4 } s = .next (s.respond .written))

/-- R234: the word a STATUS read returns, bit by bit; the read clears nothing; its two examples. -/
def Obligations.StatusReadReturnsFields : Prop :=
  ∀ s : State,
    hostAccess (readAccess .status) s = .next (s.respond (.data s.engine.statusWord)) ∧
    (∀ i < 32, s.engine.statusWord.getLsbD i =
      if i = 0 then s.engine.busy
      else if i = 1 then s.engine.done
      else if i = 2 then s.engine.err
      else if i = 4 then s.engine.errcode.getLsbD 0
      else if i = 5 then s.engine.errcode.getLsbD 1
      else false) ∧
    (s.engine = EngineState.reset → s.engine.statusWord = 0x00000000) ∧
    (EngineInv s.engine → s.engine.busy = true → s.engine.err = false → s.engine.statusWord = 0x00000001)

/-- R235: a STATUS write clears DONE by bit 1, and ERR with ERRCODE by bit 2; nothing else of the machine changes. -/
def Obligations.StatusWriteClears : Prop :=
  ∀ (s : State) (d : Word), ∃ t : State,
    hostAccess (writeAccess .status d) s = .next t ∧
    t.engine.done = (if d.getLsbD 1 = true then false else s.engine.done) ∧
    t.engine.err = (if d.getLsbD 2 = true then false else s.engine.err) ∧
    t.engine.errcode = (if d.getLsbD 2 = true then 0b00 else s.engine.errcode) ∧
    t.engine.busy = s.engine.busy ∧
    SameInputs s.engine t.engine ∧ SameOutput s.engine t.engine ∧ SameLatch s.engine t.engine ∧
    SameHost (s.respond .written) t

/-- R52, R261: an access that is not an aligned 32-bit one is refused (a bus error response, free data for a read, and
no engine state changes), and every aligned 32-bit access succeeds, whatever the state: it is answered once, and not by
an error. The counter of draws is the model's choice (notes/assumptions/5.md); that the error is a response with the
offset, and the step a next state, is notes/assumptions/6.md. -/
def Obligations.AccessSucceedsExactlyWhenLegal : Prop :=
  ∀ (s : State) (a : Access),
    (¬ (a.bytes = 4 ∧ a.off.val % 4 = 0) →
      (a.dir = .read → hostAccess a s = .next { s with
        responses := .busError a.off (some (Config.draw32 s.draws)) :: s.responses, draws := s.draws + 1 }) ∧
      (∀ d, a.dir = .write d → hostAccess a s = .next { s with responses := .busError a.off none :: s.responses })) ∧
    (a.bytes = 4 → a.off.val % 4 = 0 →
      ∃ (t : State) (r : Response), hostAccess a s = .next t ∧ t.responses = r :: s.responses ∧
        ((∃ w, a.dir = .read ∧ r = .data w) ∨ (∃ d, a.dir = .write d ∧ r = .written)))

/-- R57: no read, legal or refused, changes the engine's state. -/
def Obligations.ReadsChangeNoEngineState : Prop :=
  ∀ (s t : State) (off : Fin 64) (n : Nat), hostAccess { dir := .read, off := off, bytes := n } s = .next t →
    t.engine = s.engine ∧ t.program = s.program ∧ t.schedule = s.schedule

/-- R10, R51: the window is the 64 bytes at the base, at every base, with the eight registers at offsets 0x00 to 0x1C;
`DES_BASE` is a multiple of 0x40. R18: `MemRead` of a legal address gives the word with which the read is answered, and
`MemWrite` is the write at that offset. That an access outside the window is a step without effect, and a `memRead` there
gives no word, is the model's choice (notes/assumptions/8.md). -/
def Obligations.WindowIsAtBase : Prop :=
  (∀ (base : Nat) (dir : Dir) (a n : Nat) (s : State),
    (∀ off : Fin 64, a = base + off.val →
      busAccess base dir a n s = hostAccess { dir := dir, off := off, bytes := n } s) ∧
    (a < base ∨ base + 0x3F < a → busAccess base dir a n s = .next s)) ∧
  (∀ (off : Fin 64) (r : RegName), regAt off = some r ↔ off.val = match r with
    | .keyHi => 0x00 | .keyLo => 0x04 | .dinHi => 0x08 | .dinLo => 0x0C
    | .doutHi => 0x10 | .doutLo => 0x14 | .ctrl => 0x18 | .status => 0x1C) ∧
  Config.desBase % 0x40 = 0 ∧
  (∀ (base a : Nat) (v : Word) (s : State),
    (∀ off : Fin 64, a = base + off.val → off.val % 4 = 0 →
      (∃ (w : Word) (t : State), memRead base a 4 s = some (w, t) ∧ t.responses = .data w :: s.responses ∧
        hostAccess { dir := .read, off := off, bytes := 4 } s = .next t) ∧
      memWrite base a 4 v s = hostAccess { dir := .write v, off := off, bytes := 4 } s) ∧
    (a < base ∨ base + 0x3F < a → memRead base a 4 s = none ∧ memWrite base a 4 v s = .next s))

/-- R266: the order of the checks of an access of `n` bytes at any offset, with CTRL's further checks of the word `v`. -/
def Obligations.ChecksInOrder : Prop :=
  ∀ (s : State) (off : Fin 64) (n : Nat) (v : Word), ∃ t : State,
    (¬ (n = 4 ∧ off.val % 4 = 0) →
      hostAccess { dir := .read, off := off, bytes := n } s = .next (s.busError .read off)) ∧
    hostAccess { dir := .write v, off := off, bytes := n } s = .next t ∧
    (¬ (n = 4 ∧ off.val % 4 = 0) → t = s.respond (.busError off none)) ∧
    (n = 4 → off = regOffset .ctrl → (∃ why, decodeCmd v = .illegal why) →
      t = (s.respond .written).reject illegalCommand) ∧
    (n = 4 → off = regOffset .ctrl → (v = 0x00000001 ∨ v = 0x00000002) → s.engine.busy = true →
      t = (s.respond .written).reject busyCommand) ∧
    (n = 4 → off = regOffset .ctrl → v = 0x00000000 → t = s.respond .written)

/-- R263, R264: `record_error` sets ERR; the code of the first error stays until ERR is cleared; no other field is
touched. -/
def Obligations.FirstErrorWins : Prop :=
  ∀ (e : EngineState) (c d : BitVec 2),
    (e.recordError c).err = true ∧
    (e.err = false → (e.recordError c).errcode = c) ∧
    (e.err = true → (e.recordError c).errcode = e.errcode) ∧
    ((e.recordError c).recordError d).errcode = (e.recordError c).errcode ∧
    SameProgress e (e.recordError c) ∧ SameOutput e (e.recordError c) ∧ SameInputs e (e.recordError c) ∧
    SameLatch e (e.recordError c)

/-- R77: one step of a POLL is one read; the poll ends exactly when `(t & mask) = value`, and else comes next again. -/
def Obligations.PollRepeatsItsRead : Prop :=
  ∀ (s : State) (off : Fin 64) (mask value : Word) (rest : List HostOp),
    mover s = .host → s.program = .poll off mask value :: rest →
    ∃ t : State, step s = .next t ∧ t.engine = s.engine ∧ t.schedule = s.schedule.tail ∧
      t.responses = (hostRead off 4 s).2.responses ∧
      (((hostRead off 4 s).1 &&& mask = value → t.program = rest) ∧
       ((hostRead off 4 s).1 &&& mask ≠ value → t.program = s.program))

/-! ## The engine's step and reset -/

/-- R237: the engine's turn completes the operation in flight. ERR, ERRCODE, the inputs and the latch stay. While BUSY = 0
R237 enables no step of the engine; that the model's engine may then take a turn, which does nothing, is the model's
(notes/assumptions/2.md). -/
def Obligations.CompletionStep : Prop :=
  ∀ (s : State) (rest : List Agent), s.schedule = .engine :: rest →
    (s.engine.busy = true → step s = .next { s with
      schedule := rest
      engine := { s.engine with
        doutHi := some (hiWord (desResult s.engine.lmode s.engine.lkey s.engine.lblk))
        doutLo := some (loWord (desResult s.engine.lmode s.engine.lkey s.engine.lblk))
        busy := false, done := true } }) ∧
    (s.engine.busy = false → step s = .next { s with schedule := rest })

/-- R65: the result of an operation depends only on the latched key, block and mode. -/
def Obligations.ResultDependsOnLatchOnly : Prop :=
  ∀ e f : EngineState, SameLatch e f → SameOutput e.complete f.complete

/-- R290: the reset step, from every state: each field of the engine takes its value; the machine after reset has the same
values. -/
def Obligations.ResetStep : Prop :=
  ∀ (s : State) (rest : List Agent), s.schedule = .reset :: rest →
    ∃ t : State, step s = .next t ∧ t.engine = State.reset.engine ∧
      t.engine =
        { keyHi := 0, keyLo := 0, dinHi := 0, dinLo := 0, doutHi := some 0, doutLo := some 0
          busy := false, done := false, err := false, errcode := 0b00, lkey := 0, lblk := 0, lmode := .enc }

/-- R291, with its last sentence, which the spec infers: after reset every field has its value and every aligned 32-bit read of the window returns 0. -/
def Obligations.ResetReadsZero : Prop :=
  State.reset.engine = EngineState.reset ∧
  EngineState.reset =
    { keyHi := 0, keyLo := 0, dinHi := 0, dinLo := 0, doutHi := some 0, doutLo := some 0
      busy := false, done := false, err := false, errcode := 0b00, lkey := 0, lblk := 0, lmode := .enc } ∧
  ∀ (s : State) (off : Fin 64), s.engine = EngineState.reset → off.val % 4 = 0 →
    hostAccess { dir := .read, off := off, bytes := 4 } s = .next (s.respond (.data 0x00000000))

/-- R292 (the spec's own inference): a reset abandons the operation in flight: the engine's turn after it completes
nothing, so that DOUT is 0, not the result, and DONE is 0. That the host's program, its responses and the draws stay is the
model's choice (notes/assumptions/19.md). -/
def Obligations.ResetAbandonsOperation : Prop :=
  ∀ (s : State) (rest : List Agent), s.schedule = .reset :: .engine :: rest →
    core.run 2 s = .next { s with schedule := rest, engine := EngineState.reset }

/-! ## The whole machine -/

/-- R41 holds after reset. -/
def Obligations.ResetKeepsEngineInvariant : Prop := MachineInv State.reset

/-- R41: every step from a state that has the invariant gives one that has it. -/
def Obligations.StepKeepsEngineInvariant : Prop := ∀ s t : State, MachineInv s → step s = .next t → MachineInv t

/-- R260: nothing stops the machine; every step of every agent answers a next state. -/
def Obligations.StepNeverStops : Prop := ∀ s : State, ∃ t : State, step s = .next t

/-- R30: BUSY is set only by an accepted ENCRYPT or DECRYPT, and cleared only by completion and by reset. -/
def Obligations.BusyChangesOnlyAsStated : Prop :=
  ∀ s t : State, step s = .next t →
    (s.engine.busy = false → t.engine.busy = true →
      HostWrites s .ctrl 0x00000001 ∨ HostWrites s .ctrl 0x00000002) ∧
    (s.engine.busy = true → t.engine.busy = false →
      (mover s = .engine ∧ t.engine = s.engine.complete) ∨ (mover s = .reset ∧ t.engine = EngineState.reset))

/-- R31: DONE is set only at completion, and cleared only by an accepted command, by a STATUS write with bit 1 set, and by
reset. -/
def Obligations.DoneChangesOnlyAsStated : Prop :=
  ∀ s t : State, step s = .next t →
    (s.engine.done = false → t.engine.done = true → mover s = .engine ∧ s.engine.busy = true) ∧
    (s.engine.done = true → t.engine.done = false →
      (s.engine.busy = false ∧ (HostWrites s .ctrl 0x00000001 ∨ HostWrites s .ctrl 0x00000002)) ∨
      (∃ d, HostWrites s .status d ∧ d.getLsbD 1 = true) ∨ mover s = .reset)

/-- R32, R33: ERR is set, and ERRCODE given a nonzero value, only by a rejected CTRL write; both are cleared only by a
STATUS write with bit 2 set and by reset. -/
def Obligations.ErrorChangesOnlyAsStated : Prop :=
  ∀ s t : State, step s = .next t →
    (s.engine.err = false → t.engine.err = true →
      ∃ v, HostWrites s .ctrl v ∧
        (((∃ why, decodeCmd v = .illegal why) ∧ t.engine.errcode = 0b01) ∨
         ((v = 0x00000001 ∨ v = 0x00000002) ∧ s.engine.busy = true ∧ t.engine.errcode = 0b10))) ∧
    (s.engine.err = true → t.engine.err = true → t.engine.errcode = s.engine.errcode) ∧
    (t.engine.errcode ≠ s.engine.errcode → t.engine.errcode ≠ 0b00 → s.engine.err = false ∧ t.engine.err = true) ∧
    (s.engine.err = true → t.engine.err = false →
      t.engine.errcode = 0b00 ∧ ((∃ d, HostWrites s .status d ∧ d.getLsbD 2 = true) ∨ mover s = .reset))

/-- R35: the latch is written only at the acceptance of a command, and by reset. -/
def Obligations.LatchWrittenOnlyAtAcceptance : Prop :=
  ∀ s t : State, step s = .next t → ¬ SameLatch s.engine t.engine →
    mover s = .reset ∨
    (s.engine.busy = false ∧ t.engine.busy = true ∧ t.engine.lkey = s.engine.key ∧ t.engine.lblk = s.engine.din ∧
      ((HostWrites s .ctrl 0x00000001 ∧ t.engine.lmode = .enc) ∨ (HostWrites s .ctrl 0x00000002 ∧ t.engine.lmode = .dec)))

/-- R56: KEY and DIN change only by host writes (and by reset); DOUT changes only at acceptance, completion and reset. -/
def Obligations.DataRegistersChangeOnlyAsStated : Prop :=
  ∀ s t : State, step s = .next t →
    (¬ SameInputs s.engine t.engine → mover s = .reset ∨
      ∃ r d, (r = .keyHi ∨ r = .keyLo ∨ r = .dinHi ∨ r = .dinLo) ∧ HostWrites s r d ∧ (t.readReg r).1 = d) ∧
    (¬ SameOutput s.engine t.engine → mover s = .reset ∨ mover s = .engine ∧ s.engine.busy = true ∨
      s.engine.busy = false ∧ (HostWrites s .ctrl 0x00000001 ∨ HostWrites s .ctrl 0x00000002))

/-- R60, item 3: while DONE = 1, DOUT is the result of the latched operation. It holds after reset, and every step keeps
it: reads of DOUT after a STATUS read of DONE = 1 return the completed operation's result, until a command is accepted. -/
def Obligations.DoneShowsLatchedResult : Prop :=
  DoneInv State.reset.engine ∧ ∀ s t : State, DoneInv s.engine → step s = .next t → DoneInv t.engine

/-- R237, R298, along a run: an operation in flight cannot be disturbed: after any number of the host's turns, with any program, the
engine's turn completes it with the result of the values that were latched. -/
def Obligations.InFlightOperationIsIsolated : Prop :=
  ∀ (n : Nat) (s : State) (rest : List Agent), s.engine.busy = true →
    s.schedule = List.replicate n .host ++ .engine :: rest →
    ∃ t : State, core.run (n + 1) s = .next t ∧ t.schedule = rest ∧
      t.engine.doutHi = some (hiWord (desResult s.engine.lmode s.engine.lkey s.engine.lblk)) ∧
      t.engine.doutLo = some (loWord (desResult s.engine.lmode s.engine.lkey s.engine.lblk)) ∧
      t.engine.busy = false ∧ t.engine.done = true ∧ SameLatch s.engine t.engine

/-- R237, weak fairness, by the model's schedule and its default agent (notes/assumptions/1.md): from every state, whatever the program and the schedule, BUSY is 0 within one more step than the
schedule has turns. -/
def Obligations.OperationEventuallyCompletes : Prop :=
  ∀ s : State, ∃ (k : Nat) (t : State), k ≤ s.schedule.length + 1 ∧ core.run k s = .next t ∧ t.engine.busy = false

/-- R177 at the register window: ENCRYPT a block, load DOUT into DIN, DECRYPT under the same key: DOUT is the block; and
the same with the two commands exchanged, which is R177's own inference. `u` is any idle state with that KEY and DIN. -/
def Obligations.EngineRoundTrip : Prop :=
  ∀ (i j : Instr) (s t u v : State), (i = .encrypt ∧ j = .decrypt) ∨ (i = .decrypt ∧ j = .encrypt) →
    s.engine.busy = false → exec i s = .next t →
    u.engine.busy = false → u.engine.key = s.engine.key →
    t.engineTurn.engine.doutHi = some u.engine.dinHi → t.engineTurn.engine.doutLo = some u.engine.dinLo →
    exec j u = .next v →
    v.engineTurn.engine.doutHi = some s.engine.dinHi ∧ v.engineTurn.engine.doutLo = some s.engine.dinLo

/-! ## The DES function -/

/-- R100, R101, R54: bytes and blocks convert without loss, byte 0 in bits [31:24] of the HI word, byte 7 in bits [7:0] of
the LO word. -/
def Obligations.BytesAndBlocksAgree : Prop :=
  (∀ b : Vector Byte 8, bytesFromBlock (blockFromBytes b) = b ∧
    hiWord (blockFromBytes b) = (b[0] ++ b[1] ++ b[2] ++ b[3] : BitVec 32) ∧
    loWord (blockFromBytes b) = (b[4] ++ b[5] ++ b[6] ++ b[7] : BitVec 32)) ∧
  ∀ v : Block, blockFromBytes (bytesFromBlock v) = v

/-- R104: IP and FP are mutual inverses, on every block and at table level. -/
def Obligations.PermutationsAreInverse : Prop :=
  (∀ v : Block, fp (ip v) = v ∧ ip (fp v) = v) ∧
  ∀ i : Fin 64, fpTable.get (Fin.ofNat 64 (ipTable.get i - 1)) = i.val + 1

/-- R105, R106: the butterfly networks equal IP and FP on every input. -/
def Obligations.ButterflyNetworksRealisePermutations : Prop := ∀ v : Block, ipNet v = ip v ∧ fpNet v = fp v

/-- R140: the literal tables equal the generated ones, all 8 x 64 entries. -/
def Obligations.LiteralTablesEqualGenerated : Prop := ∀ (t : Fin 8) (x : Group6), sp t x = spGenerated t x

/-- R139: every entry lies in its table's mask, each mask has 4 bits, the masks are disjoint and cover the word, and an
entry has as many 1 bits as the S-box output. -/
def Obligations.TableMasks : Prop :=
  (∀ (t : Fin 8) (x : Group6), sp t x &&& ~~~spMask t = 0 ∧ (sp t x).cpop.toNat = (sBox t x).cpop.toNat) ∧
  (∀ t : Fin 8, (spMask t).cpop = 4) ∧
  (∀ t u : Fin 8, t ≠ u → spMask t &&& spMask u = 0) ∧
  spMask 0 ||| spMask 1 ||| spMask 2 ||| spMask 3 ||| spMask 4 ||| spMask 5 ||| spMask 6 ||| spMask 7 = 0xFFFFFFFF

/-- R153: each lookup's index is the standard's S-box input. -/
def Obligations.LookupSlots : Prop :=
  ∀ (r : Word) (k : Subkey) (t : Fin 8), lookupIndex r (pack k) t = keyGroup (expand r ^^^ k) (t.val + 1)

/-- R154: the engine's round datapath is the standard's round function, for every half and every subkey. -/
def Obligations.RoundDatapathRefinesStandard : Prop := ∀ (r : Word) (k : Subkey), roundOutput r (pack k) = fRound r k

/-- R155: combining the lookups by XOR, or by addition modulo 2^32, gives the same word as OR. -/
def Obligations.LookupsCombineAlike : Prop :=
  ∀ (r : Word) (kp : SubkeyPair),
    roundOutput r kp = ((List.finRange 8).map (lookup r kp)).foldl (· ^^^ ·) 0 ∧
    roundOutput r kp = ((List.finRange 8).map (lookup r kp)).foldl (· + ·) 0

/-- R156: complementing both operands of f leaves its result. -/
def Obligations.RoundComplement : Prop := ∀ (r : Word) (k : Subkey), fRound (~~~r) (~~~k) = fRound r k

/-- R177: the round trip, in both orders, for every key and every block. -/
def Obligations.CipherRoundTrip : Prop :=
  ∀ key block : Block, desDecrypt key (desEncrypt key block) = block ∧ desEncrypt key (desDecrypt key block) = block

/-- R179: complementation. -/
def Obligations.CipherComplement : Prop :=
  ∀ key block : Block, desEncrypt (~~~key) (~~~block) = ~~~desEncrypt key block

/-- R2, R174, and R154, which is the spec's own inference: the engine's two block functions are the standard's, with the subkeys in forward and in reverse
order. -/
def Obligations.EngineComputesStandardDes : Prop :=
  ∀ key block : Block,
    desEncrypt key block = standardCipher (roundKey key) block ∧
    desDecrypt key block = standardCipher (fun i => roundKey key (17 - i)) block

/-- R190: keys that differ only in parity bits give the same schedule and the same results. -/
def Obligations.ParityBitsIgnored : Prop :=
  ∀ k l : Block, (∀ i < 64, i % 8 ≠ 0 → k.getLsbD i = l.getLsbD i) →
    deriveSchedule k = deriveSchedule l ∧ ∀ b : Block, desEncrypt k b = desEncrypt l b ∧ desDecrypt k b = desDecrypt l b

/-- R193 to R195: the amounts of the rotations; they are cumulative and wrap around after round 16. -/
def Obligations.RotationsAccumulateAndWrap : Prop :=
  (∀ i, 1 ≤ i → i ≤ 16 → rotationAmount i = if i = 1 ∨ i = 2 ∨ i = 9 ∨ i = 16 then 1 else 2) ∧
  ∀ key : Block,
    (∀ i, 1 ≤ i → i ≤ 16 →
      cHalf key i = rotl (cHalf key (i - 1)) (rotationAmount i) ∧ dHalf key i = rotl (dHalf key (i - 1)) (rotationAmount i)) ∧
    (∀ i ≤ 15,
      cHalf key i = rotl (cHalf key 0) (((List.range (i + 1)).map rotationAmount).sum) ∧
      dHalf key i = rotl (dHalf key 0) (((List.range (i + 1)).map rotationAmount).sum)) ∧
    cHalf key 16 = cHalf key 0 ∧ dHalf key 16 = dHalf key 0

/-- R200: the schedule can be run backwards, for an on-the-fly DECRYPT. -/
def Obligations.ScheduleRunsBackwards : Prop :=
  ∀ (key : Block) (j : Nat), 2 ≤ j → j ≤ 16 →
    cHalf key (17 - j) = rotr (cHalf key (18 - j)) (rotationAmount (18 - j)) ∧
    dHalf key (17 - j) = rotr (dHalf key (18 - j)) (rotationAmount (18 - j))

/-- R201: the schedules of keys whose selected bits are all 0, or all 1. -/
def Obligations.WeakKeySchedules : Prop :=
  (∀ key : Block, pc1 key = 0 →
    (∀ i, 1 ≤ i → i ≤ 16 → roundKey key i = 0) ∧ ∀ p ∈ (deriveSchedule key).toList, p = { k0 := 0, k1 := 0 }) ∧
  (∀ key : Block, pc1 key = 0xFFFFFFFFFFFFFF →
    (∀ i, 1 ≤ i → i ≤ 16 → roundKey key i = 0xFFFFFFFFFFFF) ∧
    ∀ p ∈ (deriveSchedule key).toList, p = { k0 := 0x3F3F3F3F, k1 := 0x3F3F3F3F }) ∧
  pc1 0x0000000000000000 = 0 ∧ pc1 0xFFFFFFFFFFFFFFFF = 0xFFFFFFFFFFFFFF

/-- R175, R176: the source's known-answer vector, both ways. -/
def Obligations.KnownAnswerVector : Prop :=
  desEncrypt 0x133457799BBCDFF1 0x0123456789ABCDEF = 0x85E813540F0AB405 ∧
  desDecrypt 0x133457799BBCDFF1 0x85E813540F0AB405 = 0x0123456789ABCDEF
end

