-- ==== Sys2Proof/Laws/Bits.lean ====
section
/-! SUPPORT. Laws of the bit-vector operations: standard bits determine a value, and a table permutation moves them. -/

namespace Sys2Proof

/-- Two values with the same standard bits are equal. -/
theorem eq_of_stdBit_eq {n : Nat} {u v : BitVec n} (h : ∀ j, 1 ≤ j → j ≤ n → stdBit u j = stdBit v j) : u = v := by
  apply BitVec.eq_of_getLsbD_eq
  intro i hi
  have := h (n - i) (by omega) (by omega)
  simpa [stdBit, show n - (n - i) = i by omega] using this

theorem stdBit_xor {n : Nat} (u v : BitVec n) (j : Nat) : stdBit (u ^^^ v) j = (stdBit u j ^^ stdBit v j) := by
  simp [stdBit]

theorem stdBit_or {n : Nat} (u v : BitVec n) (j : Nat) : stdBit (u ||| v) j = (stdBit u j || stdBit v j) := by
  simp [stdBit]

theorem stdBit_not {n : Nat} (v : BitVec n) {j : Nat} (h1 : 1 ≤ j) (h2 : j ≤ n) : stdBit (~~~v) j = !stdBit v j := by
  simp [stdBit, show n - j < n by omega]

@[simp] theorem stdBit_zero {n : Nat} (j : Nat) : stdBit (0#n) j = false := by
  simp [stdBit]

namespace Machine

/-- Standard bit `j` of a permuted value is the bit the table's entry `j` names (R16). -/
theorem stdBit_permute {m n : Nat} (T : Vector Nat m) (v : BitVec n) (j : Nat) (h1 : 1 ≤ j) (h2 : j ≤ m) :
    stdBit (permute T v) j = stdBit v (T.get ⟨j - 1, by omega⟩) := by
  unfold permute
  rw [stdBit, BitVec.getLsbD_ofFnBE, dif_pos (by omega)]
  congr 2
  apply Fin.ext
  simp [Fin.rev]
  omega

theorem permute_xor {m n : Nat} (T : Vector Nat m) (u v : BitVec n) :
    permute T (u ^^^ v) = permute T u ^^^ permute T v := by
  apply eq_of_stdBit_eq
  intro j h1 h2
  simp [stdBit_xor, stdBit_permute _ _ _ h1 h2]

theorem permute_or {m n : Nat} (T : Vector Nat m) (u v : BitVec n) :
    permute T (u ||| v) = permute T u ||| permute T v := by
  apply eq_of_stdBit_eq
  intro j h1 h2
  simp [stdBit_or, stdBit_permute _ _ _ h1 h2]

@[simp] theorem permute_zero {m n : Nat} (T : Vector Nat m) : permute T (0#n) = 0#m := by
  apply eq_of_stdBit_eq
  intro j h1 h2
  simp [stdBit_permute _ _ _ h1 h2]

/-- The least significant end of the same fact: bit `i` of a permuted value. -/
theorem getLsbD_permute {m n : Nat} (T : Vector Nat m) (v : BitVec n) {i : Nat} (hi : i < m) :
    (permute T v).getLsbD i = stdBit v (T.get ⟨m - 1 - i, by omega⟩) := by
  have h := stdBit_permute T v (m - i) (by omega) (by omega)
  rw [stdBit, show m - (m - i) = i by omega] at h
  rw [h]
  congr 3
  omega

/-- A permutation whose entries are all standard bit numbers commutes with complement. -/
theorem permute_not {m n : Nat} (T : Vector Nat m) (hT : ∀ i : Fin m, 1 ≤ T.get i ∧ T.get i ≤ n) (v : BitVec n) :
    permute T (~~~v) = ~~~permute T v := by
  apply eq_of_stdBit_eq
  intro j h1 h2
  rw [stdBit_not _ h1 h2, stdBit_permute _ _ _ h1 h2, stdBit_permute _ _ _ h1 h2,
    stdBit_not _ (hT _).1 (hT _).2]

/-- A value whose bits from `k` on are 0, with bit `k` flipped off where it is set, is the sum of that bit and the rest. -/
theorem xor_twoPow_cancel {n : Nat} (v : BitVec n) (k : Nat) : v = (v ^^^ BitVec.twoPow n k) ^^^ BitVec.twoPow n k := by
  rw [BitVec.xor_assoc, BitVec.xor_self, BitVec.xor_zero]

/-- Two functions that are linear over GF(2) and agree on the unit vectors agree everywhere (R105, R153). -/
theorem eq_of_linear {m n : Nat} {f g : BitVec n → BitVec m}
    (hf : ∀ u v, f (u ^^^ v) = f u ^^^ f v) (hg : ∀ u v, g (u ^^^ v) = g u ^^^ g v)
    (unit : ∀ i < n, f (BitVec.twoPow n i) = g (BitVec.twoPow n i)) : ∀ v, f v = g v := by
  have low : ∀ k ≤ n, ∀ v : BitVec n, (∀ i, k ≤ i → v.getLsbD i = false) → f v = g v := by
    intro k
    induction k with
    | zero =>
      intro _ v hv
      obtain rfl : v = 0#n := BitVec.eq_of_getLsbD_eq fun i _ => by simp [hv i]
      have f0 := hf (0#n) (0#n)
      have g0 := hg (0#n) (0#n)
      simp only [BitVec.xor_self] at f0 g0
      rw [f0, g0]
    | succ k ih =>
      intro hk v hv
      cases hb : v.getLsbD k with
      | false =>
        refine ih (by omega) v fun i hi => ?_
        rcases Nat.eq_or_lt_of_le hi with rfl | h
        · exact hb
        · exact hv i h
      | true =>
        have rest : f (v ^^^ BitVec.twoPow n k) = g (v ^^^ BitVec.twoPow n k) := by
          refine ih (by omega) _ fun i hi => ?_
          rw [BitVec.getLsbD_xor, BitVec.getLsbD_twoPow]
          rcases Nat.eq_or_lt_of_le hi with rfl | h
          · simp [hb]; omega
          · simp [hv i h]; omega
        rw [xor_twoPow_cancel v k, hf, hg, rest, unit k (by omega)]
  exact fun v => low n (Nat.le_refl n) v fun i hi => BitVec.getLsbD_of_ge v i hi

/-- The rotation of R17 is core Lean's rotation, for which core has its lemmas. -/
theorem rotl_eq_rotateLeft {n : Nat} (v : BitVec n) {s : Nat} (h : s < n) : rotl v s = v.rotateLeft s := by
  simp [rotl, BitVec.rotateLeft, BitVec.rotateLeftAux, Nat.mod_eq_of_lt h]

/-- A left rotation moves bit `i` from bit `i - s`, wrapping at the width. -/
theorem getLsbD_rotl {n : Nat} (v : BitVec n) {s : Nat} (h : s < n) {i : Nat} (hi : i < n) :
    (rotl v s).getLsbD i = v.getLsbD ((i + n - s) % n) := by
  rw [rotl_eq_rotateLeft v h, BitVec.getLsbD_rotateLeft_of_le h]
  by_cases hs : i < s
  · rw [decide_eq_true hs, cond_true]
    congr 1
    rw [show i + n - s = n - s + i by omega, Nat.mod_eq_of_lt (by omega)]
  · rw [decide_eq_false hs, cond_false, decide_eq_true hi, Bool.true_and]
    congr 1
    rw [show i + n - s = (i - s) + n by omega, Nat.add_mod_right, Nat.mod_eq_of_lt (by omega)]

end Machine

end Sys2Proof
end

