-- ==== Sys2Proof/Laws/Des.lean ====
section
/-! SUPPORT. Laws of the network and of the schedule that the claims about DES are assembled from. -/

namespace Sys2Proof.Machine

@[simp] theorem hiWord_append (a b : Word) : hiWord (a ++ b : BitVec 64) = a :=
  BitVec.extractLsb'_append_eq_left

@[simp] theorem loWord_append (a b : Word) : loWord (a ++ b : BitVec 64) = b :=
  BitVec.extractLsb'_append_eq_right

/-- A block is its two words. -/
theorem hiWord_append_loWord (v : Block) : (hiWord v ++ loWord v : BitVec 64) = v :=
  BitVec.extractLsb'_append_extractLsb'_eq_extractLsb' (by decide) |>.trans (by simp)

@[simp] theorem splitBlock_joinSwapped (h : Halves) :
    splitBlock (joinSwapped h) = { left := h.right, right := h.left } := by
  simp [splitBlock, joinSwapped]

/-- The swap primitive is linear over GF(2) (R105). -/
theorem swapBits_xor (a b c d : Word) (n : Nat) (m : Word) :
    swapBits (a ^^^ c) (b ^^^ d) n m =
      ((swapBits a b n m).1 ^^^ (swapBits c d n m).1, (swapBits a b n m).2 ^^^ (swapBits c d n m).2) := by
  simp only [swapBits, Prod.mk.injEq]
  constructor
  · apply BitVec.eq_of_getLsbD_eq
    intro i hi
    simp only [BitVec.getLsbD_xor, BitVec.getLsbD_shiftLeft, BitVec.getLsbD_and, BitVec.getLsbD_ushiftRight, hi]
    generalize a.getLsbD i = x, c.getLsbD i = y, a.getLsbD (n + (i - n)) = x', c.getLsbD (n + (i - n)) = y',
      b.getLsbD (i - n) = z, d.getLsbD (i - n) = w, m.getLsbD (i - n) = q, decide (i < n) = r
    revert x y x' y' z w q r
    decide
  · apply BitVec.eq_of_getLsbD_eq
    intro i _
    simp only [BitVec.getLsbD_xor, BitVec.getLsbD_and, BitVec.getLsbD_ushiftRight]
    generalize a.getLsbD (n + i) = x, c.getLsbD (n + i) = y, b.getLsbD i = z, d.getLsbD i = w, m.getLsbD i = q
    revert x y z w q
    decide

theorem hiWord_xor (u v : Block) : hiWord (u ^^^ v) = hiWord u ^^^ hiWord v := by
  apply BitVec.eq_of_getLsbD_eq
  intro i hi
  simp [hiWord, hi]

theorem loWord_xor (u v : Block) : loWord (u ^^^ v) = loWord u ^^^ loWord v := by
  apply BitVec.eq_of_getLsbD_eq
  intro i hi
  simp [loWord, hi]

/-- Bit `i` of the group `g_j` (R198). -/
theorem getLsbD_keyGroup (k : Subkey) (j i : Nat) :
    (keyGroup k j).getLsbD i = (decide (i < 6) && k.getLsbD (48 - 6 * j + i)) := by
  simp [keyGroup]

/-- Bit `i` of a packed word: a group's bit in bits [5:0] of its byte, 0 in bits [7:6] (R198). -/
theorem getLsbD_packGroups (a b c d : Group6) (i : Nat) :
    (packGroups a b c d).getLsbD i =
      if i < 6 then d.getLsbD i else if i < 8 then false
      else if i < 14 then c.getLsbD (i - 8) else if i < 16 then false
      else if i < 22 then b.getLsbD (i - 16) else if i < 24 then false else a.getLsbD (i - 24) := by
  show ((0#2 ++ a ++ 0#2 ++ b ++ 0#2 ++ c ++ 0#2 ++ d : BitVec _)).getLsbD i = _
  simp only [BitVec.getLsbD_append, Nat.sub_sub, BitVec.getLsbD_zero]
  by_cases h1 : i < 6
  · simp [h1]
  by_cases h2 : i < 8
  · simp [h1, show i - 6 < 2 by omega, h2]
  by_cases h3 : i < 14
  · simp [h1, show ¬ i - 6 < 2 by omega, h2, h3, show i - 8 < 6 by omega]
  by_cases h4 : i < 16
  · simp [h1, show ¬ i - 6 < 2 by omega, h2, h3, show ¬ i - 8 < 6 by omega, show i - 14 < 2 by omega, h4]
  by_cases h5 : i < 22
  · simp [h1, show ¬ i - 6 < 2 by omega, h2, h3, show ¬ i - 8 < 6 by omega, show ¬ i - 14 < 2 by omega, h4, h5,
      show i - 16 < 6 by omega]
  by_cases h6 : i < 24
  · simp [h1, show ¬ i - 6 < 2 by omega, h2, h3, show ¬ i - 8 < 6 by omega, show ¬ i - 14 < 2 by omega, h4, h5,
      show ¬ i - 16 < 6 by omega, h6, show i - 22 < 2 by omega]
  simp [h1, show ¬ i - 6 < 2 by omega, h2, h3, show ¬ i - 8 < 6 by omega, show ¬ i - 14 < 2 by omega, h4, h5,
    show ¬ i - 16 < 6 by omega, h6, show ¬ i - 22 < 2 by omega]
  intro h
  exact BitVec.lt_of_getLsbD h

/-- The halves exchanged. -/
def Halves.exchange (h : Halves) : Halves := { left := h.right, right := h.left }

/-- A round undoes itself on exchanged halves. -/
theorem feistelRound_undo (h : Halves) (kp : SubkeyPair) :
    feistelRound (feistelRound h kp).exchange kp = h.exchange := by
  simp [feistelRound, Halves.exchange]

theorem deriveSchedule_toList (key : Block) :
    (deriveSchedule key).toList = (List.range 16).map fun i => pack (roundKey key (i + 1)) := by
  simp [deriveSchedule, Vector.toList_map, Vector.toList_range]

theorem cHalf_succ (key : Block) (i : Nat) : cHalf key (i + 1) = rotl (cHalf key i) (rotationAmount (i + 1)) := rfl

theorem dHalf_succ (key : Block) (i : Nat) : dHalf key (i + 1) = rotl (dHalf key i) (rotationAmount (i + 1)) := rfl

end Sys2Proof.Machine
end

