-- ==== Sys2Proof/Laws/State.lean ====
section
/-! SUPPORT. One lemma per field per update of the machine's records, each true by rfl, so that no proof unfolds a record
update. -/

namespace Sys2Proof.Machine

@[simp] theorem State.withEngine_engine (s : State) (e : EngineState) : (s.withEngine e).engine = e := rfl
@[simp] theorem State.withEngine_program (s : State) (e : EngineState) : (s.withEngine e).program = s.program := rfl
@[simp] theorem State.withEngine_schedule (s : State) (e : EngineState) : (s.withEngine e).schedule = s.schedule := rfl
@[simp] theorem State.withEngine_responses (s : State) (e : EngineState) : (s.withEngine e).responses = s.responses := rfl
@[simp] theorem State.withEngine_draws (s : State) (e : EngineState) : (s.withEngine e).draws = s.draws := rfl

@[simp] theorem State.respond_engine (s : State) (r : Response) : (s.respond r).engine = s.engine := rfl
@[simp] theorem State.respond_program (s : State) (r : Response) : (s.respond r).program = s.program := rfl
@[simp] theorem State.respond_schedule (s : State) (r : Response) : (s.respond r).schedule = s.schedule := rfl
@[simp] theorem State.respond_responses (s : State) (r : Response) : (s.respond r).responses = r :: s.responses := rfl
@[simp] theorem State.respond_draws (s : State) (r : Response) : (s.respond r).draws = s.draws := rfl

@[simp] theorem State.afterDraw_engine (s : State) : (s.afterDraw).engine = s.engine := rfl
@[simp] theorem State.afterDraw_program (s : State) : (s.afterDraw).program = s.program := rfl
@[simp] theorem State.afterDraw_schedule (s : State) : (s.afterDraw).schedule = s.schedule := rfl
@[simp] theorem State.afterDraw_responses (s : State) : (s.afterDraw).responses = s.responses := rfl
@[simp] theorem State.afterDraw_draws (s : State) : (s.afterDraw).draws = s.draws + 1 := rfl

@[simp] theorem State.reject_engine (s : State) (code : BitVec 2) : (s.reject code).engine = s.engine.recordError code := rfl
@[simp] theorem State.reject_program (s : State) (code : BitVec 2) : (s.reject code).program = s.program := rfl
@[simp] theorem State.reject_schedule (s : State) (code : BitVec 2) : (s.reject code).schedule = s.schedule := rfl
@[simp] theorem State.reject_responses (s : State) (code : BitVec 2) : (s.reject code).responses = s.responses := rfl
@[simp] theorem State.reject_draws (s : State) (code : BitVec 2) : (s.reject code).draws = s.draws := rfl

@[simp] theorem State.resetEngine_engine (s : State) : (s.resetEngine).engine = EngineState.reset := rfl
@[simp] theorem State.resetEngine_program (s : State) : (s.resetEngine).program = s.program := rfl
@[simp] theorem State.resetEngine_schedule (s : State) : (s.resetEngine).schedule = s.schedule := rfl
@[simp] theorem State.resetEngine_responses (s : State) : (s.resetEngine).responses = s.responses := rfl
@[simp] theorem State.resetEngine_draws (s : State) : (s.resetEngine).draws = s.draws := rfl

@[simp] theorem State.withFetchWord_engine (s : State) (n w : Nat) : (s.withFetchWord n w).engine = s.engine := rfl
@[simp] theorem State.withFetchWord_program (s : State) (n w : Nat) : (s.withFetchWord n w).program = .access (commandAccess (BitVec.ofNat 32 (w % 2 ^ n))) :: s.program := rfl
@[simp] theorem State.withFetchWord_schedule (s : State) (n w : Nat) : (s.withFetchWord n w).schedule = .host :: s.schedule := rfl
@[simp] theorem State.withFetchWord_responses (s : State) (n w : Nat) : (s.withFetchWord n w).responses = s.responses := rfl
@[simp] theorem State.withFetchWord_draws (s : State) (n w : Nat) : (s.withFetchWord n w).draws = s.draws := rfl

@[simp] theorem EngineState.accept_keyHi (e : EngineState) (m : Mode) : (e.accept m).keyHi = e.keyHi := rfl
@[simp] theorem EngineState.accept_keyLo (e : EngineState) (m : Mode) : (e.accept m).keyLo = e.keyLo := rfl
@[simp] theorem EngineState.accept_dinHi (e : EngineState) (m : Mode) : (e.accept m).dinHi = e.dinHi := rfl
@[simp] theorem EngineState.accept_dinLo (e : EngineState) (m : Mode) : (e.accept m).dinLo = e.dinLo := rfl
@[simp] theorem EngineState.accept_doutHi (e : EngineState) (m : Mode) : (e.accept m).doutHi = none := rfl
@[simp] theorem EngineState.accept_doutLo (e : EngineState) (m : Mode) : (e.accept m).doutLo = none := rfl
@[simp] theorem EngineState.accept_busy (e : EngineState) (m : Mode) : (e.accept m).busy = true := rfl
@[simp] theorem EngineState.accept_done (e : EngineState) (m : Mode) : (e.accept m).done = false := rfl
@[simp] theorem EngineState.accept_err (e : EngineState) (m : Mode) : (e.accept m).err = e.err := rfl
@[simp] theorem EngineState.accept_errcode (e : EngineState) (m : Mode) : (e.accept m).errcode = e.errcode := rfl
@[simp] theorem EngineState.accept_lkey (e : EngineState) (m : Mode) : (e.accept m).lkey = e.key := rfl
@[simp] theorem EngineState.accept_lblk (e : EngineState) (m : Mode) : (e.accept m).lblk = e.din := rfl
@[simp] theorem EngineState.accept_lmode (e : EngineState) (m : Mode) : (e.accept m).lmode = m := rfl

@[simp] theorem EngineState.complete_keyHi (e : EngineState) : (e.complete).keyHi = e.keyHi := rfl
@[simp] theorem EngineState.complete_keyLo (e : EngineState) : (e.complete).keyLo = e.keyLo := rfl
@[simp] theorem EngineState.complete_dinHi (e : EngineState) : (e.complete).dinHi = e.dinHi := rfl
@[simp] theorem EngineState.complete_dinLo (e : EngineState) : (e.complete).dinLo = e.dinLo := rfl
@[simp] theorem EngineState.complete_doutHi (e : EngineState) : (e.complete).doutHi = some (hiWord (desResult e.lmode e.lkey e.lblk)) := rfl
@[simp] theorem EngineState.complete_doutLo (e : EngineState) : (e.complete).doutLo = some (loWord (desResult e.lmode e.lkey e.lblk)) := rfl
@[simp] theorem EngineState.complete_busy (e : EngineState) : (e.complete).busy = false := rfl
@[simp] theorem EngineState.complete_done (e : EngineState) : (e.complete).done = true := rfl
@[simp] theorem EngineState.complete_err (e : EngineState) : (e.complete).err = e.err := rfl
@[simp] theorem EngineState.complete_errcode (e : EngineState) : (e.complete).errcode = e.errcode := rfl
@[simp] theorem EngineState.complete_lkey (e : EngineState) : (e.complete).lkey = e.lkey := rfl
@[simp] theorem EngineState.complete_lblk (e : EngineState) : (e.complete).lblk = e.lblk := rfl
@[simp] theorem EngineState.complete_lmode (e : EngineState) : (e.complete).lmode = e.lmode := rfl

@[simp] theorem EngineState.recordError_keyHi (e : EngineState) (code : BitVec 2) : (e.recordError code).keyHi = e.keyHi := rfl
@[simp] theorem EngineState.recordError_keyLo (e : EngineState) (code : BitVec 2) : (e.recordError code).keyLo = e.keyLo := rfl
@[simp] theorem EngineState.recordError_dinHi (e : EngineState) (code : BitVec 2) : (e.recordError code).dinHi = e.dinHi := rfl
@[simp] theorem EngineState.recordError_dinLo (e : EngineState) (code : BitVec 2) : (e.recordError code).dinLo = e.dinLo := rfl
@[simp] theorem EngineState.recordError_doutHi (e : EngineState) (code : BitVec 2) : (e.recordError code).doutHi = e.doutHi := rfl
@[simp] theorem EngineState.recordError_doutLo (e : EngineState) (code : BitVec 2) : (e.recordError code).doutLo = e.doutLo := rfl
@[simp] theorem EngineState.recordError_busy (e : EngineState) (code : BitVec 2) : (e.recordError code).busy = e.busy := rfl
@[simp] theorem EngineState.recordError_done (e : EngineState) (code : BitVec 2) : (e.recordError code).done = e.done := rfl
@[simp] theorem EngineState.recordError_err (e : EngineState) (code : BitVec 2) : (e.recordError code).err = true := rfl
@[simp] theorem EngineState.recordError_errcode (e : EngineState) (code : BitVec 2) : (e.recordError code).errcode = if e.err then e.errcode else code := rfl
@[simp] theorem EngineState.recordError_lkey (e : EngineState) (code : BitVec 2) : (e.recordError code).lkey = e.lkey := rfl
@[simp] theorem EngineState.recordError_lblk (e : EngineState) (code : BitVec 2) : (e.recordError code).lblk = e.lblk := rfl
@[simp] theorem EngineState.recordError_lmode (e : EngineState) (code : BitVec 2) : (e.recordError code).lmode = e.lmode := rfl

@[simp] theorem EngineState.setDout_keyHi (e : EngineState) (r : Block) : (e.setDout r).keyHi = e.keyHi := rfl
@[simp] theorem EngineState.setDout_keyLo (e : EngineState) (r : Block) : (e.setDout r).keyLo = e.keyLo := rfl
@[simp] theorem EngineState.setDout_dinHi (e : EngineState) (r : Block) : (e.setDout r).dinHi = e.dinHi := rfl
@[simp] theorem EngineState.setDout_dinLo (e : EngineState) (r : Block) : (e.setDout r).dinLo = e.dinLo := rfl
@[simp] theorem EngineState.setDout_doutHi (e : EngineState) (r : Block) : (e.setDout r).doutHi = some (hiWord r) := rfl
@[simp] theorem EngineState.setDout_doutLo (e : EngineState) (r : Block) : (e.setDout r).doutLo = some (loWord r) := rfl
@[simp] theorem EngineState.setDout_busy (e : EngineState) (r : Block) : (e.setDout r).busy = e.busy := rfl
@[simp] theorem EngineState.setDout_done (e : EngineState) (r : Block) : (e.setDout r).done = e.done := rfl
@[simp] theorem EngineState.setDout_err (e : EngineState) (r : Block) : (e.setDout r).err = e.err := rfl
@[simp] theorem EngineState.setDout_errcode (e : EngineState) (r : Block) : (e.setDout r).errcode = e.errcode := rfl
@[simp] theorem EngineState.setDout_lkey (e : EngineState) (r : Block) : (e.setDout r).lkey = e.lkey := rfl
@[simp] theorem EngineState.setDout_lblk (e : EngineState) (r : Block) : (e.setDout r).lblk = e.lblk := rfl
@[simp] theorem EngineState.setDout_lmode (e : EngineState) (r : Block) : (e.setDout r).lmode = e.lmode := rfl

@[simp] theorem EngineState.clearDone_keyHi (e : EngineState) (d : Word) : (e.clearDone d).keyHi = e.keyHi := rfl
@[simp] theorem EngineState.clearDone_keyLo (e : EngineState) (d : Word) : (e.clearDone d).keyLo = e.keyLo := rfl
@[simp] theorem EngineState.clearDone_dinHi (e : EngineState) (d : Word) : (e.clearDone d).dinHi = e.dinHi := rfl
@[simp] theorem EngineState.clearDone_dinLo (e : EngineState) (d : Word) : (e.clearDone d).dinLo = e.dinLo := rfl
@[simp] theorem EngineState.clearDone_doutHi (e : EngineState) (d : Word) : (e.clearDone d).doutHi = e.doutHi := rfl
@[simp] theorem EngineState.clearDone_doutLo (e : EngineState) (d : Word) : (e.clearDone d).doutLo = e.doutLo := rfl
@[simp] theorem EngineState.clearDone_busy (e : EngineState) (d : Word) : (e.clearDone d).busy = e.busy := rfl
@[simp] theorem EngineState.clearDone_done (e : EngineState) (d : Word) : (e.clearDone d).done = (e.done && !d.getLsbD 1) := rfl
@[simp] theorem EngineState.clearDone_err (e : EngineState) (d : Word) : (e.clearDone d).err = e.err := rfl
@[simp] theorem EngineState.clearDone_errcode (e : EngineState) (d : Word) : (e.clearDone d).errcode = e.errcode := rfl
@[simp] theorem EngineState.clearDone_lkey (e : EngineState) (d : Word) : (e.clearDone d).lkey = e.lkey := rfl
@[simp] theorem EngineState.clearDone_lblk (e : EngineState) (d : Word) : (e.clearDone d).lblk = e.lblk := rfl
@[simp] theorem EngineState.clearDone_lmode (e : EngineState) (d : Word) : (e.clearDone d).lmode = e.lmode := rfl

@[simp] theorem EngineState.reset_keyHi : EngineState.reset.keyHi = 0 := rfl
@[simp] theorem EngineState.reset_keyLo : EngineState.reset.keyLo = 0 := rfl
@[simp] theorem EngineState.reset_dinHi : EngineState.reset.dinHi = 0 := rfl
@[simp] theorem EngineState.reset_dinLo : EngineState.reset.dinLo = 0 := rfl
@[simp] theorem EngineState.reset_doutHi : EngineState.reset.doutHi = some 0 := rfl
@[simp] theorem EngineState.reset_doutLo : EngineState.reset.doutLo = some 0 := rfl
@[simp] theorem EngineState.reset_busy : EngineState.reset.busy = false := rfl
@[simp] theorem EngineState.reset_done : EngineState.reset.done = false := rfl
@[simp] theorem EngineState.reset_err : EngineState.reset.err = false := rfl
@[simp] theorem EngineState.reset_errcode : EngineState.reset.errcode = 0 := rfl
@[simp] theorem EngineState.reset_lkey : EngineState.reset.lkey = 0 := rfl
@[simp] theorem EngineState.reset_lblk : EngineState.reset.lblk = 0 := rfl
@[simp] theorem EngineState.reset_lmode : EngineState.reset.lmode = .enc := rfl

@[simp] theorem State.reset_engine : State.reset.engine = EngineState.reset := rfl
@[simp] theorem State.reset_program : State.reset.program = [] := rfl
@[simp] theorem State.reset_schedule : State.reset.schedule = [] := rfl
@[simp] theorem State.reset_responses : State.reset.responses = [] := rfl
@[simp] theorem State.reset_draws : State.reset.draws = 0 := rfl

/-! The STATUS clear branches on the written word, so its fields are given by cases on that bit. -/

@[simp] theorem EngineState.clearErr_keyHi (e : EngineState) (d : Word) : (e.clearErr d).keyHi = e.keyHi := by
  unfold clearErr; cases h : d.getLsbD 2 <;> simp
@[simp] theorem EngineState.clearErr_keyLo (e : EngineState) (d : Word) : (e.clearErr d).keyLo = e.keyLo := by
  unfold clearErr; cases h : d.getLsbD 2 <;> simp
@[simp] theorem EngineState.clearErr_dinHi (e : EngineState) (d : Word) : (e.clearErr d).dinHi = e.dinHi := by
  unfold clearErr; cases h : d.getLsbD 2 <;> simp
@[simp] theorem EngineState.clearErr_dinLo (e : EngineState) (d : Word) : (e.clearErr d).dinLo = e.dinLo := by
  unfold clearErr; cases h : d.getLsbD 2 <;> simp
@[simp] theorem EngineState.clearErr_doutHi (e : EngineState) (d : Word) : (e.clearErr d).doutHi = e.doutHi := by
  unfold clearErr; cases h : d.getLsbD 2 <;> simp
@[simp] theorem EngineState.clearErr_doutLo (e : EngineState) (d : Word) : (e.clearErr d).doutLo = e.doutLo := by
  unfold clearErr; cases h : d.getLsbD 2 <;> simp
@[simp] theorem EngineState.clearErr_busy (e : EngineState) (d : Word) : (e.clearErr d).busy = e.busy := by
  unfold clearErr; cases h : d.getLsbD 2 <;> simp
@[simp] theorem EngineState.clearErr_done (e : EngineState) (d : Word) : (e.clearErr d).done = e.done := by
  unfold clearErr; cases h : d.getLsbD 2 <;> simp
@[simp] theorem EngineState.clearErr_err (e : EngineState) (d : Word) : (e.clearErr d).err = (e.err && !d.getLsbD 2) := by
  unfold clearErr; cases h : d.getLsbD 2 <;> simp
@[simp] theorem EngineState.clearErr_errcode (e : EngineState) (d : Word) : (e.clearErr d).errcode = if d.getLsbD 2 then 0 else e.errcode := by
  unfold clearErr; cases h : d.getLsbD 2 <;> simp
@[simp] theorem EngineState.clearErr_lkey (e : EngineState) (d : Word) : (e.clearErr d).lkey = e.lkey := by
  unfold clearErr; cases h : d.getLsbD 2 <;> simp
@[simp] theorem EngineState.clearErr_lblk (e : EngineState) (d : Word) : (e.clearErr d).lblk = e.lblk := by
  unfold clearErr; cases h : d.getLsbD 2 <;> simp
@[simp] theorem EngineState.clearErr_lmode (e : EngineState) (d : Word) : (e.clearErr d).lmode = e.lmode := by
  unfold clearErr; cases h : d.getLsbD 2 <;> simp

@[simp] theorem EngineState.writeStatus_keyHi (e : EngineState) (d : Word) : (e.writeStatus d).keyHi = e.keyHi := by
  simp [writeStatus]
@[simp] theorem EngineState.writeStatus_keyLo (e : EngineState) (d : Word) : (e.writeStatus d).keyLo = e.keyLo := by
  simp [writeStatus]
@[simp] theorem EngineState.writeStatus_dinHi (e : EngineState) (d : Word) : (e.writeStatus d).dinHi = e.dinHi := by
  simp [writeStatus]
@[simp] theorem EngineState.writeStatus_dinLo (e : EngineState) (d : Word) : (e.writeStatus d).dinLo = e.dinLo := by
  simp [writeStatus]
@[simp] theorem EngineState.writeStatus_doutHi (e : EngineState) (d : Word) : (e.writeStatus d).doutHi = e.doutHi := by
  simp [writeStatus]
@[simp] theorem EngineState.writeStatus_doutLo (e : EngineState) (d : Word) : (e.writeStatus d).doutLo = e.doutLo := by
  simp [writeStatus]
@[simp] theorem EngineState.writeStatus_busy (e : EngineState) (d : Word) : (e.writeStatus d).busy = e.busy := by
  simp [writeStatus]
@[simp] theorem EngineState.writeStatus_done (e : EngineState) (d : Word) : (e.writeStatus d).done = (e.done && !d.getLsbD 1) := by
  simp [writeStatus]
@[simp] theorem EngineState.writeStatus_err (e : EngineState) (d : Word) : (e.writeStatus d).err = (e.err && !d.getLsbD 2) := by
  simp [writeStatus]
@[simp] theorem EngineState.writeStatus_errcode (e : EngineState) (d : Word) : (e.writeStatus d).errcode = if d.getLsbD 2 then 0 else e.errcode := by
  simp [writeStatus]
@[simp] theorem EngineState.writeStatus_lkey (e : EngineState) (d : Word) : (e.writeStatus d).lkey = e.lkey := by
  simp [writeStatus]
@[simp] theorem EngineState.writeStatus_lblk (e : EngineState) (d : Word) : (e.writeStatus d).lblk = e.lblk := by
  simp [writeStatus]
@[simp] theorem EngineState.writeStatus_lmode (e : EngineState) (d : Word) : (e.writeStatus d).lmode = e.lmode := by
  simp [writeStatus]

end Sys2Proof.Machine
end

