-- ==== Sys2Proof/Laws/Ops.lean ====
section
/-! SUPPORT. One lemma per shared operation: everything it can do. Proofs cite these and do not unfold the operation. -/

namespace Sys2Proof.Machine

/-! The register map (R22). -/

@[simp] theorem regAt_regOffset (r : RegName) : regAt (regOffset r) = some r := by
  cases r <;> rfl

/-- A register is found only at its own offset. -/
theorem regOffset_of_regAt {off : Fin 64} {r : RegName} (h : regAt off = some r) : off = regOffset r := by
  have all : ∀ off : Fin 64, ∀ r ∈ regAt off, off = regOffset r := by decide
  exact all off r h

/-- An aligned offset above the registers holds none (R53). -/
theorem regAt_reserved : ∀ off : Fin 64, 0x20 ≤ off.val → regAt off = none := by decide

@[simp] theorem accessOk_regOffset (r : RegName) : accessOk (regOffset r) 4 = true := by
  cases r <;> rfl

theorem accessOk_iff (off : Fin 64) (n : Nat) : accessOk off n = true ↔ n = 4 ∧ off.val % 4 = 0 := by
  simp [accessOk]

/-! Reads change nothing of the engine. -/

/-- A read of DOUT draws at most one word. -/
theorem State.readDout_spec (s : State) (d : Option Word) :
    (∃ w, d = some w ∧ s.readDout d = (w, s)) ∨ (d = none ∧ s.readDout d = (s.drawn, s.afterDraw)) := by
  cases d with
  | some w => exact .inl ⟨w, rfl, rfl⟩
  | none => exact .inr ⟨rfl, rfl⟩

/-- A legal read leaves the machine as it was, but for the draw that a DOUT register in UNSPEC takes. -/
theorem State.readReg_state (s : State) (r : RegName) : (s.readReg r).2 = s ∨ (s.readReg r).2 = s.afterDraw := by
  cases r <;> try exact .inl rfl
  · obtain ⟨w, -, h⟩ | ⟨-, h⟩ := s.readDout_spec s.engine.doutHi <;> simp [readReg, h]
  · obtain ⟨w, -, h⟩ | ⟨-, h⟩ := s.readDout_spec s.engine.doutLo <;> simp [readReg, h]

theorem State.readOffset_state (s : State) (off : Fin 64) :
    (s.readOffset off).2 = s ∨ (s.readOffset off).2 = s.afterDraw := by
  unfold readOffset
  split
  · exact s.readReg_state _
  · exact .inl rfl

theorem hostRead_legal {off : Fin 64} {n : Nat} (h : accessOk off n = true) (s : State) :
    hostRead off n s = ((s.readOffset off).1, (s.readOffset off).2.respond (.data (s.readOffset off).1)) := by
  simp [hostRead, h]

theorem hostRead_illegal {off : Fin 64} {n : Nat} (h : accessOk off n = false) (s : State) :
    hostRead off n s = (s.drawn, s.afterDraw.respond (.busError off (some s.drawn))) := by
  simp [hostRead, h, State.busError]

/-- A read access adds one response and takes at most one draw; nothing else changes (R57, R261). -/
theorem hostRead_state (off : Fin 64) (n : Nat) (s : State) :
    ∃ r, (hostRead off n s).2 = s.respond r ∨ (hostRead off n s).2 = s.afterDraw.respond r := by
  cases h : accessOk off n with
  | true =>
    rw [hostRead_legal h]
    refine ⟨.data (s.readOffset off).1, ?_⟩
    obtain h2 | h2 := s.readOffset_state off <;> simp [h2]
  | false =>
    rw [hostRead_illegal h]
    exact ⟨_, .inr rfl⟩

@[simp] theorem hostRead_engine (off : Fin 64) (n : Nat) (s : State) : (hostRead off n s).2.engine = s.engine := by
  obtain ⟨r, h | h⟩ := hostRead_state off n s <;> simp [h]

@[simp] theorem hostRead_program (off : Fin 64) (n : Nat) (s : State) : (hostRead off n s).2.program = s.program := by
  obtain ⟨r, h | h⟩ := hostRead_state off n s <;> simp [h]

@[simp] theorem hostRead_schedule (off : Fin 64) (n : Nat) (s : State) :
    (hostRead off n s).2.schedule = s.schedule := by
  obtain ⟨r, h | h⟩ := hostRead_state off n s <;> simp [h]

/-- What a read sees and leaves does not depend on the host's program or on the schedule, and keeps them. -/
theorem hostRead_with (off : Fin 64) (n : Nat) (s : State) (p : List HostOp) (a : List Agent) :
    hostRead off n { s with program := p, schedule := a } =
      ((hostRead off n s).1, { (hostRead off n s).2 with program := p, schedule := a }) := by
  unfold hostRead
  cases accessOk off n with
  | false => rfl
  | true =>
    unfold State.readOffset
    cases regAt off with
    | none => rfl
    | some r =>
      cases r
      case doutHi => simp only [State.readReg]; cases s.engine.doutHi <;> rfl
      case doutLo => simp only [State.readReg]; cases s.engine.doutLo <;> rfl
      all_goals rfl

/-- The aligned 32-bit read of a register (R220). -/
theorem hostAccess_read (r : RegName) (s : State) :
    hostAccess (readAccess r) s = .next ((s.readReg r).2.respond (.data (s.readReg r).1)) := by
  cases r <;> rfl

/-- The aligned 32-bit write of a register other than CTRL (R220). -/
theorem hostAccess_write {r : RegName} (h : r ≠ .ctrl) (d : Word) (s : State) :
    hostAccess (writeAccess r d) s = .next ((s.respond .written).withEngine (s.engine.writeReg r d)) := by
  simp only [hostAccess, writeAccess, hostWrite, accessOk_regOffset, if_true, writeOffset, regAt_regOffset]
  cases r <;> first | exact absurd rfl h | rfl

/-- The aligned 32-bit write of CTRL (R228). -/
theorem hostAccess_ctrl (v : Word) (s : State) :
    hostAccess (writeAccess .ctrl v) s = ctrlWrite v (s.respond .written) := by
  simp only [hostAccess, writeAccess, hostWrite, accessOk_regOffset, if_true, writeOffset, regAt_regOffset]

/-! The bus form of an access, for a window at any base (R51, R18). -/

theorem accessAt_window (base : Nat) (dir : Dir) (off : Fin 64) (n : Nat) :
    accessAt base dir (base + off.val) n = some { dir := dir, off := off, bytes := n } := by
  have h : base ≤ base + off.val ∧ base + off.val < base + 0x40 := by omega
  simp [accessAt, h]

theorem accessAt_outside {base a : Nat} (h : a < base ∨ base + 0x3F < a) (dir : Dir) (n : Nat) :
    accessAt base dir a n = none := by
  have h : ¬ (base ≤ a ∧ a < base + 0x40) := by omega
  simp [accessAt, h]

theorem busAccess_window (base : Nat) (dir : Dir) (off : Fin 64) (n : Nat) (s : State) :
    busAccess base dir (base + off.val) n s = hostAccess { dir := dir, off := off, bytes := n } s := by
  simp only [busAccess, accessAt_window]

theorem busAccess_outside {base a : Nat} (h : a < base ∨ base + 0x3F < a) (dir : Dir) (n : Nat) (s : State) :
    busAccess base dir a n s = .next s := by
  simp only [busAccess, accessAt_outside h]

theorem memRead_window (base : Nat) (off : Fin 64) (n : Nat) (s : State) :
    memRead base (base + off.val) n s = some (hostRead off n s) := by
  simp only [memRead, accessAt_window, Option.map_some]

theorem memRead_outside {base a : Nat} (h : a < base ∨ base + 0x3F < a) (n : Nat) (s : State) :
    memRead base a n s = none := by
  simp only [memRead, accessAt_outside h, Option.map_none]

/-! Commands. -/

theorem State.startOperation_idle {s : State} (h : s.engine.busy = false) (m : Mode) :
    s.startOperation m = s.withEngine (s.engine.accept m) := by
  simp [startOperation, h]

theorem State.startOperation_busy {s : State} (h : s.engine.busy = true) (m : Mode) :
    s.startOperation m = s.reject busyCommand := by
  simp [startOperation, h]

theorem State.engineTurn_idle {s : State} (h : s.engine.busy = false) : s.engineTurn = s := by
  simp [engineTurn, h]

theorem State.engineTurn_busy {s : State} (h : s.engine.busy = true) :
    s.engineTurn = s.withEngine s.engine.complete := by
  simp [engineTurn, h]

/-- Everything a word written to CTRL can do to the engine (R228). -/
inductive CtrlEffect (e : EngineState) (v : Word) : EngineState → Prop where
  | illegal (why : IllegalWord) : decodeCmd v = .illegal why → CtrlEffect e v (e.recordError illegalCommand)
  | nop : decodeCmd v = .command .nop → CtrlEffect e v e
  | busy (i : Instr) : decodeCmd v = .command i → i ≠ .nop → e.busy = true → CtrlEffect e v (e.recordError busyCommand)
  | encrypt : decodeCmd v = .command .encrypt → e.busy = false → CtrlEffect e v (e.accept .enc)
  | decrypt : decodeCmd v = .command .decrypt → e.busy = false → CtrlEffect e v (e.accept .dec)

/-- A CTRL write answers a next state that differs in the engine only, by one of the effects above. -/
theorem ctrlWrite_cases (v : Word) (s : State) :
    ∃ f, ctrlWrite v s = .next (s.withEngine f) ∧ CtrlEffect s.engine v f := by
  unfold ctrlWrite
  cases hd : decodeCmd v with
  | illegal why => exact ⟨_, rfl, .illegal why hd⟩
  | command i =>
    cases hb : s.engine.busy with
    | true =>
      cases i with
      | nop => exact ⟨_, rfl, .nop hd⟩
      | encrypt => exact ⟨_, by simp [exec, execEncrypt, State.startOperation_busy hb, State.reject], .busy _ hd nofun hb⟩
      | decrypt => exact ⟨_, by simp [exec, execDecrypt, State.startOperation_busy hb, State.reject], .busy _ hd nofun hb⟩
    | false =>
      cases i with
      | nop => exact ⟨_, rfl, .nop hd⟩
      | encrypt => exact ⟨_, by simp [exec, execEncrypt, State.startOperation_idle hb], .encrypt hd hb⟩
      | decrypt => exact ⟨_, by simp [exec, execDecrypt, State.startOperation_idle hb], .decrypt hd hb⟩

/-- Everything a legal write can do to the engine. -/
inductive WriteEffect (e : EngineState) : RegName → Word → EngineState → Prop where
  | ctrl (v : Word) (f : EngineState) : CtrlEffect e v f → WriteEffect e .ctrl v f
  | plain (r : RegName) (data : Word) : r ≠ .ctrl → WriteEffect e r data (e.writeReg r data)

/-- A legal write of a register answers a next state that differs in the engine only. -/
theorem writeOffset_reg (r : RegName) (data : Word) (s : State) :
    ∃ f, writeOffset (regOffset r) data s = .next (s.withEngine f) ∧ WriteEffect s.engine r data f := by
  unfold writeOffset
  rw [regAt_regOffset]
  cases r
  case ctrl =>
    obtain ⟨f, h, hf⟩ := ctrlWrite_cases data s
    exact ⟨f, h, .ctrl data f hf⟩
  all_goals exact ⟨_, rfl, .plain _ _ nofun⟩

/-- A write access answers a next state: it is refused and only answered, or it misses every register, or it is a legal
write of a register (R220). -/
theorem hostWrite_cases (off : Fin 64) (n : Nat) (data : Word) (s : State) :
    (∃ r, hostWrite off n data s = .next (s.respond r)) ∨
    ∃ r f, off = regOffset r ∧ n = 4 ∧ hostWrite off n data s = .next ((s.respond .written).withEngine f) ∧
      WriteEffect s.engine r data f := by
  unfold hostWrite
  cases h : accessOk off n with
  | false => exact .inl ⟨_, rfl⟩
  | true =>
    simp only [if_true]
    cases hr : regAt off with
    | none => exact .inl ⟨.written, by simp [writeOffset, hr]⟩
    | some r =>
      obtain rfl := regOffset_of_regAt hr
      obtain ⟨f, h1, h2⟩ := writeOffset_reg r data (s.respond .written)
      exact .inr ⟨r, f, rfl, ((accessOk_iff _ _).1 h).1, h1, h2⟩

/-- A legal write access is answered `written` and differs otherwise in the engine only. -/
theorem hostWrite_legal {off : Fin 64} {n : Nat} (h : accessOk off n = true) (data : Word) (s : State) :
    ∃ f, hostWrite off n data s = .next ((s.respond .written).withEngine f) := by
  simp only [hostWrite, h, if_true]
  cases hr : regAt off with
  | none => exact ⟨s.engine, by simp only [writeOffset, hr]; rfl⟩
  | some r =>
    obtain rfl := regOffset_of_regAt hr
    obtain ⟨f, h1, -⟩ := writeOffset_reg r data (s.respond .written)
    exact ⟨f, h1⟩

/-- A host access leaves the program and the schedule alone; the engine changes only by a legal write of a register. -/
theorem hostAccess_cases (a : Access) (s : State) :
    ∃ t, hostAccess a s = .next t ∧ t.program = s.program ∧ t.schedule = s.schedule ∧
      (t.engine = s.engine ∨ ∃ r data, a = writeAccess r data ∧ WriteEffect s.engine r data t.engine) := by
  obtain ⟨dir, off, n⟩ := a
  cases dir with
  | read => exact ⟨_, rfl, by simp, by simp, .inl (by simp)⟩
  | write data =>
    obtain ⟨r, h⟩ | ⟨r, f, rfl, rfl, h, hf⟩ := hostWrite_cases off n data s
    · exact ⟨_, h, rfl, rfl, .inl rfl⟩
    · exact ⟨_, h, rfl, rfl, .inr ⟨r, data, rfl, hf⟩⟩

end Sys2Proof.Machine
end

