-- ==== Sys2Proof/Laws/PerInstr.lean ====
section
/-! SUPPORT. Facts about every command as syntax, one lemma per constructor (LAWS.json, "per_instruction"). -/

/-- The word of a command has RSVD = 0 and an OP that is not the reserved one (R70, R71). -/
def Sys2Proof.Laws.CommandWord.Statement (i : Sys2Proof.Instr) : Prop :=
  Sys2Proof.rsvdField (Sys2Proof.encode i) = 0 ∧ Sys2Proof.opField (Sys2Proof.encode i) = Sys2Proof.opOf i ∧
    Sys2Proof.opOf i ≠ 0b11

theorem Sys2Proof.Laws.CommandWord.nop : Sys2Proof.Laws.CommandWord.Statement .nop := by
  unfold Sys2Proof.Laws.CommandWord.Statement; decide

theorem Sys2Proof.Laws.CommandWord.encrypt : Sys2Proof.Laws.CommandWord.Statement .encrypt := by
  unfold Sys2Proof.Laws.CommandWord.Statement; decide

theorem Sys2Proof.Laws.CommandWord.decrypt : Sys2Proof.Laws.CommandWord.Statement .decrypt := by
  unfold Sys2Proof.Laws.CommandWord.Statement; decide
end

