-- ==== Sys2Proof/Laws/Step.lean ====
section
/-! SUPPORT. What a turn and a step can do, said once: the inversion lemmas from which the claims about steps follow. -/

namespace Sys2Proof.Machine

/-- A step is a turn of the mover. -/
theorem step_eq_turn (s : State) : step s = turn (mover s) { s with schedule := s.schedule.tail } := by
  obtain ⟨e, p, sch, r, d⟩ := s
  cases sch <;> rfl

/-- The host's turn answers a next state with the same schedule; the engine changes only by a legal write of a register
that was the host's next access. -/
theorem hostTurn_cases (s : State) :
    ∃ t, hostTurn s = .next t ∧ t.schedule = s.schedule ∧
      (t.engine = s.engine ∨ ∃ r data rest, s.program = .access (writeAccess r data) :: rest ∧ t.program = rest ∧
        WriteEffect s.engine r data t.engine) := by
  unfold hostTurn
  split
  · exact ⟨s, rfl, rfl, .inl rfl⟩
  · next a rest hp =>
    obtain ⟨t, h, h1, h2, h3⟩ := hostAccess_cases a { s with program := rest }
    refine ⟨t, h, h2, ?_⟩
    obtain h3 | ⟨r, data, rfl, h3⟩ := h3
    · exact .inl h3
    · exact .inr ⟨r, data, rest, hp, h1, h3⟩
  · next off mask value rest hp =>
    unfold hostPoll
    simp only
    split
    · exact ⟨_, rfl, by simp, .inl (by simp)⟩
    · exact ⟨_, rfl, by simp, .inl (by simp)⟩

/-- What a step can do to the engine, with the agent that did it. -/
inductive StepEffect (s : State) : EngineState → Prop where
  | complete : mover s = .engine → s.engine.busy = true → StepEffect s s.engine.complete
  | reset : mover s = .reset → StepEffect s EngineState.reset
  | write (r : RegName) (data : Word) (f : EngineState) :
      HostWrites s r data → WriteEffect s.engine r data f → StepEffect s f
  | none : StepEffect s s.engine

/-- Every step answers a next state, takes one agent off the schedule, and changes the engine by one of these effects. -/
theorem step_cases (s : State) :
    ∃ t, step s = .next t ∧ t.schedule = s.schedule.tail ∧ StepEffect s t.engine := by
  rw [step_eq_turn]
  cases hm : mover s with
  | host =>
    obtain ⟨t, h1, h2, h3⟩ := hostTurn_cases { s with schedule := s.schedule.tail }
    refine ⟨t, h1, h2, ?_⟩
    obtain h3 | ⟨r, data, rest, hp, -, h3⟩ := h3
    · rw [h3]; exact .none
    · exact .write r data _ ⟨hm, rest, hp⟩ h3
  | engine =>
    cases hb : s.engine.busy with
    | true => exact ⟨_, rfl, by simp [State.engineTurn, hb], by simpa [State.engineTurn, hb] using .complete hm hb⟩
    | false => exact ⟨_, rfl, by simp [State.engineTurn, hb], by simpa [State.engineTurn, hb] using .none⟩
  | reset => exact ⟨_, rfl, rfl, .reset hm⟩

/-- The same for a known next state. -/
theorem stepEffect_of_step {s t : State} (h : step s = .next t) :
    t.schedule = s.schedule.tail ∧ StepEffect s t.engine := by
  obtain ⟨u, hu, h1, h2⟩ := step_cases s
  rw [h] at hu
  cases hu
  exact ⟨h1, h2⟩

/-! Runs of the machine behind the host's interface. -/

@[simp] theorem core_run_zero (s : State) : core.run 0 s = .next s := rfl

/-- The first step of a run. -/
theorem core_run_succ {s t : State} (h : step s = .next t) (k : Nat) : core.run (k + 1) s = core.run k t := by
  have h' : core.step s = .next t := h
  simp only [Host.Core.run, h']

end Sys2Proof.Machine
end

