-- ==== Sys2Proof/Tests/Slice0.lean ====
section
/-! SUPPORT. Small tests, each with its source in the spec, and a witness for the hypotheses of every statement that has
some. -/

namespace Sys2Proof.Tests

open Sys2Proof Sys2Proof.Machine

/-! ## WellFormed -/

/-- R76: a raw offset above 0x3F is no offset of the window. -/
theorem test_wf_refuses_raw_offset : (RegRef.raw 0x40).wf = false ∧ (RegRef.raw 0x3F).wf = true := by decide

theorem test_wf_refuses_wr : (HostLine.wr (.raw 0x40) 0).wf = false := by decide

theorem test_wf_refuses_rd : (HostLine.rd (.raw 0x40) "x").wf = false := by decide

theorem test_wf_refuses_poll : (HostLine.poll (.raw 0x40) 1 0).wf = false := by decide

/-- An ill-formed line has no encoding. -/
theorem test_ill_formed_line_has_no_encoding : lineOps (.wr (.raw 0x40) 0) = none := by decide

/-! ## Decoding: the words of R71, written out from the fields of R70, and illegal words of R73, R232 -/

theorem test_decode_nop : decodeCmd 0b000000000000000000000000000000_00#32 = .command .nop := by decide

theorem test_decode_encrypt : decodeCmd 0b000000000000000000000000000000_01#32 = .command .encrypt := by decide

theorem test_decode_decrypt : decodeCmd 0b000000000000000000000000000000_10#32 = .command .decrypt := by decide

theorem test_decode_reserved_op : decodeCmd 0b000000000000000000000000000000_11#32 = .illegal .reservedOp := by decide

/-- R232: "The word 0x00000005 (OP = 0b01 with bit 2 set) is illegal, not an ENCRYPT." -/
theorem test_decode_reserved_bits :
    decodeCmd 0x00000005 = .illegal .reservedBits ∧ decodeCmd 0x80000001 = .illegal .reservedBits := by decide

/-- The table words of spec/opcode_table.json. -/
theorem test_table_words :
    decodeTableWord 32 0x00000000 = some .nop ∧ decodeTableWord 32 0x00000001 = some .encrypt ∧
    decodeTableWord 32 0x00000002 = some .decrypt ∧ decodeTableWord 32 0x00000003 = none := by decide

/-! ## Commands and accesses: the rows of 95_test_vectors.md section 2.8 -/

/-- The idle engine of section 2.8: KEY and DIN of the known-answer vector loaded. -/
def idle : State :=
  State.reset.withEngine { EngineState.reset with
    keyHi := 0x13345779, keyLo := 0x9BBCDFF1, dinHi := 0x01234567, dinLo := 0x89ABCDEF }

/-- The same with an ENCRYPT in flight. -/
def inFlight : State := idle.withEngine (idle.engine.accept .enc)

/-- The same with STATUS = 0x16: done, and an illegal command recorded. -/
def doneAndErr : State := idle.withEngine { idle.engine with done := true, err := true, errcode := 0b01 }

/-- The machine as its host is about to make these operations, the host moving next. -/
def hostNext (s : State) (ops : List HostOp) : State := { s with program := ops, schedule := [.host] }

/-- STATUS after one step, if the step answers a next state. -/
def statusAfterStep (s : State) : Option Word :=
  match step s with
  | .next t => some t.engine.statusWord
  | .fault _ => none
  | .refused _ => none

/-- STATUS after the host's write of a register. -/
def statusAfterWrite (s : State) (r : RegName) (d : Word) : Option Word :=
  statusAfterStep (hostNext s [.access (writeAccess r d)])

/-- R231: rows `W CTRL 0x00000000`, idle and busy. -/
theorem test_nop : statusAfterWrite idle .ctrl 0 = some 0 ∧ statusAfterWrite inFlight .ctrl 0 = some 1 := by decide

/-- R229, R233: rows `W CTRL 0x00000001`, from STATUS 0 and 1. -/
theorem test_encrypt :
    statusAfterWrite idle .ctrl 1 = some 0x00000001 ∧ statusAfterWrite inFlight .ctrl 1 = some 0x00000025 := by decide

/-- R230, R233: rows `W CTRL 0x00000002`, from STATUS 0 and 1. -/
theorem test_decrypt :
    statusAfterWrite idle .ctrl 2 = some 0x00000001 ∧ statusAfterWrite inFlight .ctrl 2 = some 0x00000025 := by decide

/-- R230: the latch of an accepted DECRYPT. -/
theorem test_decrypt_latches :
    (idle.engine.accept .dec).lkey = 0x133457799BBCDFF1 ∧ (idle.engine.accept .dec).lblk = 0x0123456789ABCDEF ∧
    (idle.engine.accept .dec).lmode = .dec := by decide

/-- R232, R266: rows `W CTRL 0x00000003`; illegal wins over busy. -/
theorem test_illegal_command :
    statusAfterWrite idle .ctrl 3 = some 0x00000014 ∧ statusAfterWrite inFlight .ctrl 3 = some 0x00000015 := by decide

/-- R235: rows `W STATUS`, from STATUS 0x16 and from 1. -/
theorem test_status_write :
    statusAfterWrite doneAndErr .status 0x2 = some 0x14 ∧ statusAfterWrite doneAndErr .status 0x4 = some 0x02 ∧
    statusAfterWrite doneAndErr .status 0x6 = some 0x00 ∧ statusAfterWrite doneAndErr .status 0x30 = some 0x16 ∧
    statusAfterWrite inFlight .status 0x1 = some 0x01 := by decide

/-- R261, section 2.10: a misaligned write of CTRL leaves STATUS 0. -/
theorem test_misaligned_ctrl_write :
    statusAfterStep (hostNext State.reset [.access { dir := .write 1, off := 0x19, bytes := 4 }]) = some 0 := by decide

/-- R101: a block crosses the window in two words (section 2.1). -/
theorem test_ldblk_words :
    ldblkOps (blockFromBytes #v[0x4E, 0x6F, 0x77, 0x20, 0x69, 0x73, 0x20, 0x74]) =
      [wrOp 0x08 0x4E6F7720, wrOp 0x0C 0x69732074] := by decide +kernel

/-! ## The DES function: 95_test_vectors.md sections 2.2 to 2.7 -/

theorem test_ip : ip 0x0123456789ABCDEF = 0xCC00CCFFF0AAF0AA := by decide +kernel

theorem test_fp : fp 0x0123456789ABCDEF = 0xFF330FAA00330FAA := by decide +kernel

theorem test_ip_net : ipNet 0x0000000000000080 = 0x0000000080000000 := by decide +kernel

theorem test_sp : sp 0 0x21 = 0x00808202 ∧ sp 7 0x3F = 0x08020800 ∧ sp 5 0x20 = 0x10002000 := by decide +kernel

theorem test_subkeys :
    roundKey 0x133457799BBCDFF1 1 = 0x1B02EFFC7072 ∧ roundKey 0x133457799BBCDFF1 16 = 0xCB3D8B0E17F5 := by
  decide +kernel

theorem test_pack : pack 0x1B02EFFC7072 = { k0 := 0x060B3F01, k1 := 0x302F0732 } := by decide +kernel

theorem test_round_output :
    roundOutput 0xF0AAF0AA { k0 := 0x060B3F01, k1 := 0x302F0732 } = 0x234AA9BB := by decide +kernel

theorem test_f_corner : fRound 0x00000001 0x000000000000 = 0xD05AD19C := by decide +kernel

/-- Section 1.3: the all-zero key and block. -/
theorem test_encrypt_zero : desEncrypt 0 0 = 0x8CA64DE9C1B123A7 := by decide +kernel

/-- Section 2.7. -/
theorem test_decrypt_vector : desDecrypt 0x0123456789ABCDEF 0x4E6F772069732074 = 0xA416143D9243704C := by decide +kernel

/-! ## Witnesses: for each statement with hypotheses, a state and operands that meet all of them together -/

theorem witness_DecodeEncodeAgree : Instr.encrypt.wf = true ∧ decodeCmd 1 = .command .encrypt := by decide

theorem witness_StepRunsDecodedCommand :
    mover (hostNext idle [.access (writeAccess .ctrl 2)]) = .host ∧
    (hostNext idle [.access (writeAccess .ctrl 2)]).program = .access (writeAccess .ctrl 2) :: [] ∧
    decodeCmd 2 = .command .decrypt := ⟨rfl, rfl, by decide⟩

/-- With an empty schedule and an idle engine the host moves too. -/
theorem witness_StepRunsDecodedCommand_default :
    mover { idle with program := [.access (writeAccess .ctrl 0)] } = .host ∧ decodeCmd 0 = .command .nop :=
  ⟨rfl, by decide⟩

theorem witness_FetchWordRunsNext : decodeTableWord 32 1 = some .encrypt := by decide

theorem witness_EncryptAccepted :
    idle.engine.busy = false ∧ exec .encrypt idle = .next (idle.withEngine (idle.engine.accept .enc)) := ⟨rfl, rfl⟩

theorem witness_DecryptAccepted :
    idle.engine.busy = false ∧ exec .decrypt idle = .next (idle.withEngine (idle.engine.accept .dec)) := ⟨rfl, rfl⟩

theorem witness_CommandWhileBusyRejected :
    inFlight.engine.busy = true ∧ exec .encrypt inFlight = .next (inFlight.reject busyCommand) ∧
    exec .decrypt inFlight = .next (inFlight.reject busyCommand) := ⟨rfl, rfl, rfl⟩

/-- The smallest word of each clause: OP = 0b11, and the lowest and the highest RSVD bit. -/
theorem witness_IllegalCommandRecorded :
    mover (hostNext idle [.access (writeAccess .ctrl 3)]) = .host ∧
    (0x00000003#32).extractLsb' 0 2 = 0b11 ∧ (0x00000004#32).extractLsb' 2 30 ≠ 0 ∧
    (0x80000000#32).extractLsb' 2 30 ≠ 0 := ⟨rfl, by decide, by decide, by decide⟩

theorem witness_CommandFrame_nop : exec .nop inFlight = .next inFlight := rfl

theorem witness_CommandFrame_busy :
    exec .encrypt inFlight = .next (inFlight.reject busyCommand) ∧ inFlight.engine.busy = true := ⟨rfl, rfl⟩

theorem witness_CommandFrame_idle :
    exec .decrypt idle = .next (idle.withEngine (idle.engine.accept .dec)) ∧ idle.engine.busy = false := ⟨rfl, rfl⟩

/-- The run of a state, step by step. -/
def runFrom (s : State) : Nat → State
  | 0 => s
  | i + 1 =>
    match step (runFrom s i) with
    | .next t => t
    | .fault _ => s
    | .refused _ => s

theorem runFrom_step (s : State) (i : Nat) : step (runFrom s i) = .next (runFrom s (i + 1)) := by
  obtain ⟨t, h, -⟩ := step_cases (runFrom s i)
  simp only [runFrom, h]

/-- The host writes DIN_LO, then DIN_HI, then an illegal command, and then makes a narrow write at DIN_LO's offset. -/
def writesDinLo : State :=
  { hostNext inFlight [.access (writeAccess .dinLo 7), .access (writeAccess .dinHi 8), .access (writeAccess .ctrl 5),
      .access { dir := .write 8, off := 0x0C, bytes := 2 }] with schedule := [.host, .host, .host, .host] }

theorem witness_ReadAfterWriteReturnsWritten :
    (∀ i ≤ 3, step (runFrom writesDinLo i) = .next (runFrom writesDinLo (i + 1))) ∧
    HostWrites (runFrom writesDinLo 0) .dinLo 7 ∧
    (∀ i, 1 ≤ i → i ≤ 3 → mover (runFrom writesDinLo i) ≠ .reset ∧ ∀ d, ¬ HostWrites (runFrom writesDinLo i) .dinLo d) ∧
    ∃ t, hostAccess (writeAccess .dinLo 7) inFlight = .next t := by
  refine ⟨fun i _ => runFrom_step _ i, ⟨rfl, _, rfl⟩, fun i h1 h3 => ?_,
    _, hostAccess_write (r := .dinLo) nofun 7 inFlight⟩
  obtain rfl | rfl | rfl : i = 1 ∨ i = 2 ∨ i = 3 := by omega
  all_goals
    refine ⟨by decide, ?_⟩
    rintro d ⟨-, rest, h⟩
    cases h

theorem witness_InputRegistersReadBack :
    State.reset.engine = EngineState.reset ∧
    ∃ t, hostAccess (writeAccess .keyHi 7) inFlight = .next t := ⟨rfl, _, hostAccess_write (r := .keyHi) nofun 7 inFlight⟩

theorem witness_DoutReadsOrDraws :
    idle.engine.doutHi = some 0 ∧ idle.engine.doutLo = some 0 ∧ inFlight.engine.doutHi = none ∧
    inFlight.engine.doutLo = none := ⟨rfl, rfl, rfl, rfl⟩

theorem witness_AccessesWithoutEffect :
    0x20 ≤ (0x20 : Fin 64).val ∧ (0x20 : Fin 64).val % 4 = 0 ∧ 0x20 ≤ (0x3C : Fin 64).val ∧
    (0x3C : Fin 64).val % 4 = 0 := by decide

/-- A narrow access, a wide one, and a misaligned one at each end of the window. -/
theorem witness_AccessSucceedsExactlyWhenLegal_refused :
    ¬ ((1 : Nat) = 4 ∧ (0x1C : Fin 64).val % 4 = 0) ∧ ¬ ((8 : Nat) = 4 ∧ (0x10 : Fin 64).val % 4 = 0) ∧
    ¬ ((4 : Nat) = 4 ∧ (0x01 : Fin 64).val % 4 = 0) ∧ ¬ ((4 : Nat) = 4 ∧ (0x3F : Fin 64).val % 4 = 0) := by decide

theorem witness_AccessSucceedsExactlyWhenLegal_legal : (0x00 : Fin 64).val % 4 = 0 ∧ (0x3C : Fin 64).val % 4 = 0 := by decide

theorem witness_ReadsChangeNoEngineState :
    hostAccess { dir := .read, off := 0x1E, bytes := 2 } inFlight = .next (inFlight.busError .read 0x1E) := rfl

/-- A raw offset on either side of the window's end. -/
theorem witness_HostLinesEncodeAsTriples :
    0x40 ≤ 0x40 ∧ lineOps (.rd (.raw 0x40) "x") = none ∧ lineOps (.rd (.raw 0x3F) "x") = some [rdOp 0x3F] := by decide

/-- The first and the last address of the window at 0x40, its last aligned one, and the addresses on either side of it. -/
theorem witness_WindowIsAtBase :
    0x40 = 0x40 + (0 : Fin 64).val ∧ 0x7C = 0x40 + (0x3C : Fin 64).val ∧ (0x3C : Fin 64).val % 4 = 0 ∧ 0x7F = 0x40 + (0x3F : Fin 64).val ∧ 0x3F < 0x40 ∧ 0x40 + 0x3F < 0x80 := by decide

theorem witness_ChecksInOrder :
    ¬ ((2 : Nat) = 4 ∧ (0x18 : Fin 64).val % 4 = 0) ∧ (0x18 : Fin 64) = regOffset .ctrl ∧
    decodeCmd 3 = .illegal .reservedOp ∧ inFlight.engine.busy = true := by decide

/-- An idle engine after reset, and one with an operation in flight and no error. -/
theorem witness_StatusReadReturnsFields :
    State.reset.engine = EngineState.reset ∧ EngineInv inFlight.engine ∧ inFlight.engine.busy = true ∧
    inFlight.engine.err = false :=
  ⟨rfl, ⟨fun _ => ⟨rfl, rfl, rfl⟩, nofun, ⟨fun _ => rfl, fun _ => rfl⟩, by decide⟩, rfl, rfl⟩

theorem witness_FirstErrorWins : idle.engine.err = false ∧ doneAndErr.engine.err = true := ⟨rfl, rfl⟩

/-- STATUS of the idle engine meets WAIT's condition, and STATUS of the busy engine does not. -/
theorem witness_PollRepeatsItsRead :
    mover (hostNext idle [.poll 0x1C 1 0]) = .host ∧ (hostNext idle [.poll 0x1C 1 0]).program = [.poll 0x1C 1 0] ∧
    (hostRead 0x1C 4 (hostNext idle [.poll 0x1C 1 0])).1 &&& 1 = 0 ∧
    (hostRead 0x1C 4 (hostNext inFlight [.poll 0x1C 1 0])).1 &&& 1 ≠ 0 := ⟨rfl, rfl, by decide, by decide⟩

/-- The engine's turn, with an operation in flight and without. -/
theorem witness_CompletionStep :
    ({ inFlight with schedule := [.engine] } : State).schedule = .engine :: [] ∧ inFlight.engine.busy = true ∧
    idle.engine.busy = false := ⟨rfl, rfl, rfl⟩

theorem witness_ResultDependsOnLatchOnly :
    SameLatch inFlight.engine { inFlight.engine with keyHi := 0, err := true } ∧
    inFlight.engine ≠ { inFlight.engine with keyHi := 0, err := true } := ⟨⟨rfl, rfl, rfl⟩, by decide⟩

theorem witness_ResetStep : ({ inFlight with schedule := [.reset] } : State).schedule = .reset :: [] := rfl

theorem witness_ResetReadsZero :
    State.reset.engine = EngineState.reset ∧ (0x1C : Fin 64).val % 4 = 0 ∧ (0x3C : Fin 64).val % 4 = 0 :=
  ⟨rfl, by decide, by decide⟩

theorem witness_ResetAbandonsOperation :
    ({ inFlight with schedule := [.reset, .engine] } : State).schedule = .reset :: .engine :: [] ∧
    inFlight.engine.busy = true := ⟨rfl, rfl⟩

theorem inFlight_inv : MachineInv inFlight :=
  ⟨fun _ => ⟨rfl, rfl, rfl⟩, nofun, ⟨fun _ => rfl, fun _ => rfl⟩, by decide⟩

theorem witness_StepKeepsEngineInvariant : MachineInv inFlight ∧ step inFlight = .next inFlight.engineTurn :=
  ⟨inFlight_inv, rfl⟩

/-- BUSY set by an accepted command, and cleared by completion and by reset. -/
theorem witness_BusyChangesOnlyAsStated :
    (∃ t, step (hostNext idle [.access (writeAccess .ctrl 1)]) = .next t ∧ t.engine.busy = true) ∧
    (∃ t, step { inFlight with schedule := [.engine] } = .next t ∧ t.engine.busy = false) ∧
    (∃ t, step { inFlight with schedule := [.reset] } = .next t ∧ t.engine.busy = false) :=
  ⟨⟨_, hostAccess_ctrl 1 _, rfl⟩, ⟨_, rfl, rfl⟩, ⟨_, rfl, rfl⟩⟩

/-- DONE set by completion, and cleared by a STATUS write and by reset. -/
theorem witness_DoneChangesOnlyAsStated :
    (∃ t, step { inFlight with schedule := [.engine] } = .next t ∧ inFlight.engine.done = false ∧
      t.engine.done = true) ∧
    (∃ t, step (hostNext doneAndErr [.access (writeAccess .status 2)]) = .next t ∧ t.engine.done = false) ∧
    (∃ t, step { doneAndErr with schedule := [.reset] } = .next t ∧ t.engine.done = false) :=
  ⟨⟨_, rfl, rfl, rfl⟩, ⟨_, hostAccess_write (r := .status) nofun 2 _, rfl⟩, ⟨_, rfl, rfl⟩⟩

/-- ERR set by an illegal and by a busy command, kept by a second error, and cleared by a STATUS write. -/
theorem witness_ErrorChangesOnlyAsStated :
    statusAfterWrite idle .ctrl 3 = some 0x14 ∧ statusAfterWrite inFlight .ctrl 2 = some 0x25 ∧
    statusAfterWrite doneAndErr .ctrl 5 = some 0x16 ∧ statusAfterWrite doneAndErr .status 4 = some 0x02 := by decide

theorem witness_LatchWrittenOnlyAtAcceptance :
    ∃ t, step (hostNext idle [.access (writeAccess .ctrl 2)]) = .next t ∧ ¬ SameLatch idle.engine t.engine :=
  ⟨_, hostAccess_ctrl 2 _, fun h => absurd h.2.2 (by decide)⟩

/-- KEY changed by a write, DOUT by completion. -/
theorem witness_DataRegistersChangeOnlyAsStated :
    (∃ t, step (hostNext idle [.access (writeAccess .keyHi 0)]) = .next t ∧ ¬ SameInputs idle.engine t.engine) ∧
    (∃ t, step { inFlight with schedule := [.engine] } = .next t ∧ ¬ SameOutput inFlight.engine t.engine) :=
  ⟨⟨_, hostAccess_write (r := .keyHi) nofun 0 _, fun h => absurd h.1 (by decide)⟩,
    ⟨_, rfl, fun h => absurd h.1 nofun⟩⟩

/-- The step that sets DONE. -/
theorem witness_DoneShowsLatchedResult :
    DoneInv inFlight.engine ∧ step inFlight = .next inFlight.engineTurn ∧ inFlight.engineTurn.engine.done = true :=
  ⟨nofun, rfl, rfl⟩

/-- No host turn, and two. -/
theorem witness_InFlightOperationIsIsolated :
    inFlight.engine.busy = true ∧ ([.engine] : List Agent) = List.replicate 0 .host ++ .engine :: [] ∧
    ([.host, .host, .engine, .reset] : List Agent) = List.replicate 2 .host ++ .engine :: [.reset] := ⟨rfl, rfl, rfl⟩

/-- `idle` with another block in DIN. -/
def reloaded (r : Block) : State := idle.withEngine { idle.engine with dinHi := hiWord r, dinLo := loWord r }

theorem reloaded_runs (r : Block) :
    (reloaded r).engine.busy = false ∧ (reloaded r).engine.key = idle.engine.key ∧
    exec .decrypt (reloaded r) = .next ((reloaded r).withEngine ((reloaded r).engine.accept .dec)) := ⟨rfl, rfl, rfl⟩

theorem reloaded_din (e : EngineState) (r : Block) (h : r = desResult e.lmode e.lkey e.lblk) :
    e.complete.doutHi = some (reloaded r).engine.dinHi ∧ e.complete.doutLo = some (reloaded r).engine.dinLo := by
  subst h; exact ⟨e.complete_doutHi, e.complete_doutLo⟩

/-- DECRYPT in `idle`, then ENCRYPT of its result. -/
theorem witness_EngineRoundTrip_decrypt :
    ∃ t u v, idle.engine.busy = false ∧ exec .decrypt idle = .next t ∧ u.engine.busy = false ∧
      u.engine.key = idle.engine.key ∧ t.engineTurn.engine.doutHi = some u.engine.dinHi ∧
      t.engineTurn.engine.doutLo = some u.engine.dinLo ∧ exec .encrypt u = .next v := by
  obtain ⟨t, htd⟩ : ∃ t, t = idle.withEngine (idle.engine.accept .dec) := ⟨_, rfl⟩
  have hb : t.engine.busy = true := by rw [htd]; rfl
  obtain ⟨r, hr⟩ : ∃ r, r = desResult t.engine.lmode t.engine.lkey t.engine.lblk := ⟨_, rfl⟩
  have hd := reloaded_din t.engine r hr
  have ht : t.engineTurn.engine = t.engine.complete := by rw [State.engineTurn_busy hb]; rfl
  refine ⟨t, reloaded r, _, rfl, by rw [htd]; rfl, (reloaded_runs r).1, (reloaded_runs r).2.1, ?_, ?_, rfl⟩
  · rw [ht]; exact hd.1
  · rw [ht]; exact hd.2

/-- ENCRYPT in `idle`, then DECRYPT of its result. -/
theorem witness_EngineRoundTrip :
    ∃ u v, idle.engine.busy = false ∧ exec .encrypt idle = .next inFlight ∧ u.engine.busy = false ∧
      u.engine.key = idle.engine.key ∧ inFlight.engineTurn.engine.doutHi = some u.engine.dinHi ∧
      inFlight.engineTurn.engine.doutLo = some u.engine.dinLo ∧ exec .decrypt u = .next v := by
  obtain ⟨r, hr⟩ : ∃ r, r = desResult inFlight.engine.lmode inFlight.engine.lkey inFlight.engine.lblk := ⟨_, rfl⟩
  have hd := reloaded_din inFlight.engine r hr
  have ht : inFlight.engineTurn.engine = inFlight.engine.complete := by
    rw [State.engineTurn_busy rfl]; rfl
  rw [ht]
  exact ⟨reloaded r, _, rfl, rfl, (reloaded_runs r).1, (reloaded_runs r).2.1, hd.1, hd.2, (reloaded_runs r).2.2⟩

theorem witness_ParityBitsIgnored :
    ∀ i < 64, i % 8 ≠ 0 → (0x0000000000000000#64).getLsbD i = (0x0101010101010101#64).getLsbD i := by
  decide +kernel

theorem witness_TableMasks : (0 : Fin 8) ≠ 7 := by decide

theorem witness_RotationsAccumulateAndWrap : rotationAmount 1 = 1 ∧ rotationAmount 3 = 2 ∧ rotationAmount 16 = 1 := by
  decide

/-- The last step back: round 16 of a DECRYPT needs C_1, from C_2. -/
theorem witness_ScheduleRunsBackwards :
    cHalf 0x133457799BBCDFF1 1 = 0xE19955F ∧ cHalf 0x133457799BBCDFF1 2 = 0xC332ABF := by decide +kernel

theorem witness_WeakKeySchedules :
    pc1 0x0101010101010101 = 0 ∧ pc1 0xFEFEFEFEFEFEFEFE = 0xFFFFFFFFFFFFFF := by decide +kernel

end Sys2Proof.Tests
end

/-! PROOFS, scope. The window at the platform's base (R10, R18, R22, R51). -/

namespace Sys2Proof.Machine

/-- The register map, read both ways (R22). -/
theorem regAt_eq_some_iff (off : Fin 64) (r : RegName) : regAt off = some r ↔ off = regOffset r :=
  ⟨regOffset_of_regAt, fun h => h ▸ regAt_regOffset r⟩

/-- A legal read is answered with the word it gives, and with nothing else (R220). -/
theorem hostRead_legal_responses {off : Fin 64} {n : Nat} (h : accessOk off n = true) (s : State) :
    (hostRead off n s).2.responses = .data (hostRead off n s).1 :: s.responses := by
  rw [hostRead_legal h]
  obtain h2 | h2 := s.readOffset_state off <;> simp [h2]

/-- Settles O22: the laws of the bus form of an access at and outside the window, and the register map. -/
theorem windowIsAtBase : Obligations.WindowIsAtBase := by
  refine ⟨fun base dir a n s => ⟨?_, fun h => busAccess_outside h dir n s⟩, ?_,
    Nat.mul_mod_right 0x40 Config.desBaseBlock,
    fun base a v s => ⟨?_, fun h => ⟨memRead_outside h 4 s, busAccess_outside h (.write v) 4 s⟩⟩⟩
  · rintro off rfl
    exact busAccess_window base dir off n s
  · intro off r
    rw [regAt_eq_some_iff, Fin.ext_iff]
    cases r <;> rfl
  · rintro off rfl aligned
    have legal : accessOk off 4 = true := (accessOk_iff off 4).2 ⟨rfl, aligned⟩
    exact ⟨⟨_, _, memRead_window base off 4 s, hostRead_legal_responses legal s, rfl⟩,
      busAccess_window base (.write v) off 4 s⟩

end Sys2Proof.Machine

/-! PROOFS, scope. The engine's round is the standard's (R151 to R154): each lookup index is an S-box input, each table
word is a permuted S-box output, and P distributes over the OR of the outputs. -/

namespace Sys2Proof.Machine

/-! The S-box inputs: bits of the expanded half, of the packed subkey, and of their XOR. -/

/-- E names, from bit 0 up, runs of six neighbouring bits, each run four bits further on (R150). -/
theorem getLsbD_expand (r : Word) {m : Nat} (hm : m < 48) :
    (expand r).getLsbD m = r.getLsbD ((4 * (m / 6) + m % 6 + 31) % 32) := by
  have entry : ∀ m : Fin 48, 32 - eTable.get m.rev = (4 * (m.val / 6) + m.val % 6 + 31) % 32 := by decide
  have hrev : (⟨48 - 1 - m, by omega⟩ : Fin 48) = Fin.rev ⟨m, hm⟩ := Fin.ext (by simp)
  rw [expand, getLsbD_permute eTable r hm, stdBit, hrev, entry]

/-- The group of the expanded half that feeds S-box `j` is six neighbouring bits of the half rotated by 1 (R152). -/
theorem getLsbD_keyGroup_expand (r : Word) {j i : Nat} (h1 : 1 ≤ j) (h8 : j ≤ 8) (hi : i < 6) :
    (keyGroup (expand r) j).getLsbD i = (roundX r).getLsbD ((4 * (8 - j) + i) % 32) := by
  rw [getLsbD_keyGroup, decide_eq_true hi, Bool.true_and, getLsbD_expand r (by omega), roundX,
    getLsbD_rotl _ (by omega) (by omega)]
  congr 1
  omega

/-- The odd groups start at a byte of the half rotated back by 4. -/
theorem keyGroup_expand_odd (r : Word) {q : Nat} (hq : q < 4) :
    keyGroup (expand r) (2 * q + 1) = (rotr (roundX r) 4).extractLsb' (24 - 8 * q) 6 := by
  apply BitVec.eq_of_getLsbD_eq
  intro i hi
  rw [getLsbD_keyGroup_expand r (by omega) (by omega) hi, BitVec.getLsbD_extractLsb', decide_eq_true hi,
    Bool.true_and, rotr, getLsbD_rotl _ (by omega) (by omega)]
  congr 1
  omega

/-- The even groups start at a byte of the rotated half itself. -/
theorem keyGroup_expand_even (r : Word) {q : Nat} (hq : q < 4) :
    keyGroup (expand r) (2 * q + 2) = (roundX r).extractLsb' (24 - 8 * q) 6 := by
  apply BitVec.eq_of_getLsbD_eq
  intro i hi
  rw [getLsbD_keyGroup_expand r (by omega) (by omega) hi, BitVec.getLsbD_extractLsb', decide_eq_true hi,
    Bool.true_and]
  congr 1
  omega

theorem keyGroup_xor (k l : Subkey) (j : Nat) : keyGroup (k ^^^ l) j = keyGroup k j ^^^ keyGroup l j := by
  simp only [keyGroup, BitVec.extractLsb'_xor]

/-- Byte `q` of a packed word, counted from the left, holds its group `q` (R198). -/
theorem packGroups_group (g : Nat → Group6) {q : Nat} (hq : q < 4) :
    (packGroups (g 0) (g 1) (g 2) (g 3)).extractLsb' (24 - 8 * q) 6 = g q := by
  apply BitVec.eq_of_getLsbD_eq
  intro i hi
  rw [BitVec.getLsbD_extractLsb', decide_eq_true hi, Bool.true_and, getLsbD_packGroups]
  obtain rfl | rfl | rfl | rfl : q = 0 ∨ q = 1 ∨ q = 2 ∨ q = 3 := by omega
  all_goals grind

/-- `k0` holds the odd groups of the subkey (R198). -/
theorem pack_k0_group (k : Subkey) {q : Nat} (hq : q < 4) :
    (pack k).k0.extractLsb' (24 - 8 * q) 6 = keyGroup k (2 * q + 1) :=
  packGroups_group (fun q => keyGroup k (2 * q + 1)) hq

/-- `k1` holds the even groups of the subkey (R198). -/
theorem pack_k1_group (k : Subkey) {q : Nat} (hq : q < 4) :
    (pack k).k1.extractLsb' (24 - 8 * q) 6 = keyGroup k (2 * q + 2) :=
  packGroups_group (fun q => keyGroup k (2 * q + 2)) hq

theorem roundA_pack_group (r : Word) (k : Subkey) {q : Nat} (hq : q < 4) :
    (roundA r (pack k)).extractLsb' (24 - 8 * q) 6 = keyGroup (expand r ^^^ k) (2 * q + 1) := by
  rw [roundA, BitVec.extractLsb'_xor, pack_k0_group k hq, ← keyGroup_expand_odd r hq, keyGroup_xor]

theorem roundB_pack_group (r : Word) (k : Subkey) {q : Nat} (hq : q < 4) :
    (roundB r (pack k)).extractLsb' (24 - 8 * q) 6 = keyGroup (expand r ^^^ k) (2 * q + 2) := by
  rw [roundB, BitVec.extractLsb'_xor, pack_k1_group k hq, ← keyGroup_expand_even r hq, keyGroup_xor]

/-- Table `t` is indexed by the input of S-box `t + 1` (R153). -/
theorem lookupIndex_pack (r : Word) (k : Subkey) :
    ∀ t : Fin 8, lookupIndex r (pack k) t = keyGroup (expand r ^^^ k) (t.val + 1)
  | 0 => roundA_pack_group r k (q := 0) (by decide)
  | 1 => roundB_pack_group r k (q := 0) (by decide)
  | 2 => roundA_pack_group r k (q := 1) (by decide)
  | 3 => roundB_pack_group r k (q := 1) (by decide)
  | 4 => roundA_pack_group r k (q := 2) (by decide)
  | 5 => roundB_pack_group r k (q := 2) (by decide)
  | 6 => roundA_pack_group r k (q := 3) (by decide)
  | 7 => roundB_pack_group r k (q := 3) (by decide)

/-! The S-box outputs: side by side they are the OR of the shifted words from which the combined table is generated. -/

/-- Appending a nibble is an OR with it, below the rest. -/
theorem setWidth_append_nibble {m : Nat} (a : BitVec m) (b : BitVec 4) (s : Nat) :
    (a ++ b).setWidth 32 <<< s = a.setWidth 32 <<< (4 + s) ||| b.setWidth 32 <<< s := by
  apply BitVec.eq_of_getLsbD_eq
  intro i hi
  simp only [BitVec.getLsbD_or, BitVec.getLsbD_shiftLeft, BitVec.getLsbD_setWidth, BitVec.getLsbD_append]
  by_cases below : i < s
  · simp [below, show i < 4 + s by omega]
  by_cases inNibble : i < 4 + s
  · simp [below, inNibble, show i - s < 4 by omega]
  · have hb : b.getLsbD (i - s) = false := BitVec.getLsbD_of_ge b (i - s) (by omega)
    simp [below, inNibble, hb, show ¬ i - s < 4 by omega, show i - s < 32 by omega,
      show i - s - 4 = i - (4 + s) by omega, show i - (4 + s) < 32 by omega]

theorem joinNibbles_eq_or (y : Fin 8 → BitVec 4) :
    joinNibbles y =
      (y 0).setWidth 32 <<< 28 ||| (y 1).setWidth 32 <<< 24 ||| (y 2).setWidth 32 <<< 20 |||
        (y 3).setWidth 32 <<< 16 ||| (y 4).setWidth 32 <<< 12 ||| (y 5).setWidth 32 <<< 8 |||
        (y 6).setWidth 32 <<< 4 ||| (y 7).setWidth 32 <<< 0 := by
  calc joinNibbles y
    _ = (y 0 ++ y 1 ++ y 2 ++ y 3 ++ y 4 ++ y 5 ++ y 6 ++ y 7).setWidth 32 <<< 0 := by
      rw [BitVec.shiftLeft_zero]
      exact (BitVec.setWidth_eq _).symm
    _ = _ := by repeat rw [setWidth_append_nibble]

theorem pPermute_or (u v : Word) : pPermute (u ||| v) = pPermute u ||| pPermute v :=
  permute_or pTable u v

/-- P of the S-box outputs side by side is the OR of the generated table words (R130, R155). -/
theorem pPermute_joinNibbles_sBox (x : Fin 8 → Group6) :
    pPermute (joinNibbles fun t => sBox t (x t)) =
      spGenerated 0 (x 0) ||| spGenerated 1 (x 1) ||| spGenerated 2 (x 2) ||| spGenerated 3 (x 3) |||
        spGenerated 4 (x 4) ||| spGenerated 5 (x 5) ||| spGenerated 6 (x 6) ||| spGenerated 7 (x 7) := by
  simp only [joinNibbles_eq_or, pPermute_or]
  rfl

/-- The literal tables are the generated ones, by evaluating their 8 x 64 entries (R140). -/
theorem sp_eq_spGenerated (t : Fin 8) (x : Group6) : sp t x = spGenerated t x := by
  revert t x
  decide +kernel

/-- The engine's round datapath is the standard's round function (R154). -/
theorem roundOutput_pack (r : Word) (k : Subkey) : roundOutput r (pack k) = fRound r k := by
  simp only [roundOutput, lookup, lookupIndex_pack, sp_eq_spGenerated]
  exact (pPermute_joinNibbles_sBox fun t => keyGroup (expand r ^^^ k) (t.val + 1)).symm

end Sys2Proof.Machine

/-! PROOFS, scope. The engine's network runs the standard's rounds, in either order of the subkeys (R171 to R176). -/

namespace Sys2Proof.Machine

/-- One round of the engine with a packed subkey is one round of the standard (R171). -/
theorem feistelRound_pack (h : Halves) (k : Subkey) :
    feistelRound h (pack k) = { left := h.right, right := h.left ^^^ fRound h.right k } := by
  rw [feistelRound, roundOutput_pack]

/-- The engine's rounds reach the standard's halves after any number of rounds. -/
theorem foldl_feistelRound_pack (keys : Nat → Subkey) (v : Block) (n : Nat) :
    ((List.range n).map fun i => pack (keys (i + 1))).foldl feistelRound (splitBlock v) =
      standardHalves keys v n := by
  induction n with
  | zero => rfl
  | succ n ih =>
    rw [List.range_succ, List.map_append, List.foldl_append, ih]
    exact feistelRound_pack _ _

/-- The engine's function between IP and FP, for the packed pairs of any 16 subkeys, is the standard's (R174). -/
theorem fp_runRounds_ip (keys : Nat → Subkey) (block : Block) :
    fp (runRounds ((List.range 16).map fun i => pack (keys (i + 1))) (ip block)) = standardCipher keys block := by
  rw [runRounds, foldl_feistelRound_pack, standardCipher]

/-- DECRYPT's pairs are those of `K_16` to `K_1` (R173). -/
theorem deriveSchedule_toList_reverse (key : Block) :
    (deriveSchedule key).toList.reverse = (List.range 16).map fun i => pack (roundKey key (17 - (i + 1))) := by
  rw [deriveSchedule_toList]
  rfl

/-- Settles O54, by induction on the rounds (`foldl_feistelRound_pack`), each round by `roundOutput_pack`. -/
theorem engineComputesStandardDes : Obligations.EngineComputesStandardDes := by
  intro key block
  constructor
  · rw [desEncrypt, encryptBlock, deriveSchedule_toList, fp_runRounds_ip]
  · rw [desDecrypt, decryptBlock, deriveSchedule_toList_reverse]
    exact fp_runRounds_ip (fun i => roundKey key (17 - i)) block

end Sys2Proof.Machine

/-! PROOFS, state. What one step changes, flattened from `stepEffect_of_step` with the CTRL words written out, and from
it when BUSY, DONE, ERR, ERRCODE and the latch change (R30 to R33, R35). -/

namespace Sys2Proof.Machine

/-! The command words (R71, R72). -/

/-- A word is its fields RSVD and OP, side by side (R70). -/
theorem rsvdField_append_opField (v : Word) : (rsvdField v ++ opField v : BitVec 32) = v :=
  (BitVec.extractLsb'_append_extractLsb'_eq_extractLsb' rfl).trans BitVec.extractLsb'_eq_self

theorem eq_opOf_of_decodeOp {op : BitVec 2} {i : Instr} (h : decodeOp op = .command i) : op = opOf i := by
  revert op
  cases i <;> decide

/-- A word that decodes to a command is that command's word. -/
theorem eq_encode_of_decodeCmd {v : Word} {i : Instr} (h : decodeCmd v = .command i) : v = encode i := by
  unfold decodeCmd at h
  split at h
  · next noReservedBits =>
    rw [← rsvdField_append_opField v, noReservedBits, eq_opOf_of_decodeOp h, encode]
    rfl
  · exact absurd h nofun

/-- The word that starts an operation of this mode (R71). -/
def Mode.word : Mode → Word
  | .enc => 0x00000001
  | .dec => 0x00000002

theorem Mode.word_eq (m : Mode) : m.word = 0x00000001 ∨ m.word = 0x00000002 := by
  cases m
  · exact .inl rfl
  · exact .inr rfl

/-- Every command but NOP starts an operation of one of the two modes. -/
theorem exists_mode_of_decodeCmd {v : Word} {i : Instr} (h : decodeCmd v = .command i) (notNop : i ≠ .nop) :
    ∃ m : Mode, v = m.word := by
  obtain rfl := eq_encode_of_decodeCmd h
  cases i with
  | nop => exact absurd rfl notNop
  | encrypt => exact ⟨.enc, rfl⟩
  | decrypt => exact ⟨.dec, rfl⟩

theorem hostWrites_ctrl_word {s : State} {m : Mode} (h : HostWrites s .ctrl m.word) :
    HostWrites s .ctrl 0x00000001 ∨ HostWrites s .ctrl 0x00000002 := by
  cases m
  · exact .inl h
  · exact .inr h

/-! The changes of one step. -/

/-- A write of a register other than CTRL leaves BUSY (R222, R224, R226, R235). -/
@[simp] theorem EngineState.writeReg_busy (e : EngineState) (r : RegName) (d : Word) :
    (e.writeReg r d).busy = e.busy := by
  cases r <;> simp [writeReg]

theorem EngineState.writeReg_latch (e : EngineState) (r : RegName) (d : Word) : SameLatch e (e.writeReg r d) := by
  cases r <;> simp [writeReg, SameLatch]

theorem EngineState.writeReg_done {r : RegName} (h : r ≠ .status) (e : EngineState) (d : Word) :
    (e.writeReg r d).done = e.done := by
  cases r <;> simp [writeReg] at h ⊢

theorem EngineState.writeReg_error {r : RegName} (h : r ≠ .status) (e : EngineState) (d : Word) :
    SameError e (e.writeReg r d) := by
  cases r <;> simp [writeReg, SameError] at h ⊢

/-- A STATUS write with bit 2 clear leaves ERRCODE (R235). -/
theorem EngineState.writeStatus_errcode_of_bit_clear (e : EngineState) {d : Word} (h : d.getLsbD 2 = false) :
    (e.writeStatus d).errcode = e.errcode := by
  rw [writeStatus_errcode, h]
  rfl

/-- The engine after one step from `s`, with the agent and the access that made it so. -/
inductive StepChange (s : State) : EngineState → Prop where
  | none : StepChange s s.engine
  | reset : mover s = .reset → StepChange s EngineState.reset
  | complete : mover s = .engine → s.engine.busy = true → StepChange s s.engine.complete
  | accept (m : Mode) : HostWrites s .ctrl m.word → s.engine.busy = false → StepChange s (s.engine.accept m)
  | rejectBusy (m : Mode) : HostWrites s .ctrl m.word → s.engine.busy = true →
      StepChange s (s.engine.recordError busyCommand)
  | rejectIllegal (v : Word) (why : IllegalWord) : HostWrites s .ctrl v → decodeCmd v = .illegal why →
      StepChange s (s.engine.recordError illegalCommand)
  | writeStatus (d : Word) : HostWrites s .status d → StepChange s (s.engine.writeStatus d)
  | writeData (r : RegName) (d : Word) : HostWrites s r d → r ≠ .ctrl → r ≠ .status →
      StepChange s (s.engine.writeReg r d)

theorem stepChange_of_ctrlEffect {s : State} {v : Word} {f : EngineState} (hw : HostWrites s .ctrl v)
    (h : CtrlEffect s.engine v f) : StepChange s f := by
  cases h with
  | illegal why hd => exact .rejectIllegal v why hw hd
  | nop => exact .none
  | busy i hd notNop hb =>
    obtain ⟨m, rfl⟩ := exists_mode_of_decodeCmd hd notNop
    exact .rejectBusy m hw hb
  | encrypt hd hb =>
    obtain rfl := eq_encode_of_decodeCmd hd
    exact .accept .enc hw hb
  | decrypt hd hb =>
    obtain rfl := eq_encode_of_decodeCmd hd
    exact .accept .dec hw hb

theorem stepChange_of_writeEffect {s : State} {r : RegName} {d : Word} {f : EngineState} (hw : HostWrites s r d)
    (h : WriteEffect s.engine r d f) : StepChange s f := by
  cases h with
  | ctrl _ _ h => exact stepChange_of_ctrlEffect hw h
  | plain _ _ notCtrl =>
    by_cases hr : r = .status
    · subst hr
      exact .writeStatus d hw
    · exact .writeData r d hw notCtrl hr

/-- Every step makes one of these changes. -/
theorem stepChange_of_step {s t : State} (h : step s = .next t) : StepChange s t.engine := by
  obtain ⟨-, h⟩ := stepEffect_of_step h
  generalize t.engine = f at h
  cases h with
  | complete hm hb => exact .complete hm hb
  | reset hm => exact .reset hm
  | write r d _ hw h => exact stepChange_of_writeEffect hw h
  | none => exact .none

namespace StepChange

variable {s : State} {f : EngineState}

/-! BUSY (R30). -/

/-- BUSY is set by acceptance. -/
theorem of_busy_set (c : StepChange s f) (hs : s.engine.busy = false) (hf : f.busy = true) :
    ∃ m : Mode, HostWrites s .ctrl m.word ∧ f = s.engine.accept m := by
  cases c with
  | accept m hw _ => exact ⟨m, hw, rfl⟩
  | none | reset | complete | rejectBusy | rejectIllegal | writeStatus | writeData => simp [hs] at hf

/-- BUSY is cleared by completion and by reset. -/
theorem of_busy_cleared (c : StepChange s f) (hs : s.engine.busy = true) (hf : f.busy = false) :
    (mover s = .engine ∧ f = s.engine.complete) ∨ (mover s = .reset ∧ f = EngineState.reset) := by
  cases c with
  | complete hm _ => exact .inl ⟨hm, rfl⟩
  | reset hm => exact .inr ⟨hm, rfl⟩
  | none | accept | rejectBusy | rejectIllegal | writeStatus | writeData => simp [hs] at hf

/-! DONE (R31). -/

/-- DONE is set by completion. -/
theorem of_done_set (c : StepChange s f) (hs : s.engine.done = false) (hf : f.done = true) :
    mover s = .engine ∧ s.engine.busy = true := by
  cases c with
  | complete hm hb => exact ⟨hm, hb⟩
  | writeData _ _ _ _ notStatus => simp [EngineState.writeReg_done notStatus, hs] at hf
  | none | reset | accept | rejectBusy | rejectIllegal | writeStatus => simp [hs] at hf

/-- DONE is cleared by acceptance, by a STATUS write with bit 1 set, and by reset. -/
theorem of_done_cleared (c : StepChange s f) (hs : s.engine.done = true) (hf : f.done = false) :
    (s.engine.busy = false ∧ ∃ m : Mode, HostWrites s .ctrl m.word) ∨
    (∃ d, HostWrites s .status d ∧ d.getLsbD 1 = true) ∨ mover s = .reset := by
  cases c with
  | accept m hw hb => exact .inl ⟨hb, m, hw⟩
  | writeStatus d hw => exact .inr (.inl ⟨d, hw, by simpa [hs] using hf⟩)
  | reset hm => exact .inr (.inr hm)
  | writeData _ _ _ _ notStatus => simp [EngineState.writeReg_done notStatus, hs] at hf
  | none | complete | rejectBusy | rejectIllegal => simp [hs] at hf

/-! ERR and ERRCODE (R32, R33). -/

/-- ERR is set by a rejected command, which records its code (R262, R263). -/
theorem of_err_set (c : StepChange s f) (hs : s.engine.err = false) (hf : f.err = true) :
    ∃ v, HostWrites s .ctrl v ∧
      (((∃ why, decodeCmd v = .illegal why) ∧ f.errcode = illegalCommand) ∨
       ((v = 0x00000001 ∨ v = 0x00000002) ∧ s.engine.busy = true ∧ f.errcode = busyCommand)) := by
  cases c with
  | rejectIllegal v why hw hd => exact ⟨v, hw, .inl ⟨⟨why, hd⟩, by simp [hs]⟩⟩
  | rejectBusy m hw hb => exact ⟨m.word, hw, .inr ⟨m.word_eq, hb, by simp [hs]⟩⟩
  | writeData _ d _ _ notStatus => simp [(s.engine.writeReg_error notStatus d).1, hs] at hf
  | none | reset | complete | accept | writeStatus => simp [hs] at hf

/-- While ERR stays 1 the first error's code stays (R264). -/
theorem errcode_of_err_kept (c : StepChange s f) (hs : s.engine.err = true) (hf : f.err = true) :
    f.errcode = s.engine.errcode := by
  cases c with
  | none | complete | accept => rfl
  | rejectBusy | rejectIllegal => simp [hs]
  | writeStatus d =>
    have notCleared : d.getLsbD 2 = false := by simpa [hs] using hf
    exact s.engine.writeStatus_errcode_of_bit_clear notCleared
  | writeData _ d _ _ notStatus => exact (s.engine.writeReg_error notStatus d).2
  | reset => simp at hf

/-- ERRCODE takes a nonzero value only as ERR is set. -/
theorem err_set_of_errcode_ne (c : StepChange s f) (changed : f.errcode ≠ s.engine.errcode)
    (nonzero : f.errcode ≠ 0b00) : s.engine.err = false ∧ f.err = true := by
  cases c with
  | none | complete | accept => exact absurd rfl changed
  | reset => exact absurd rfl nonzero
  | rejectBusy | rejectIllegal =>
    cases hs : s.engine.err with
    | true => simp [hs] at changed
    | false => exact ⟨rfl, rfl⟩
  | writeStatus d =>
    cases hd : d.getLsbD 2 with
    | true => simp [hd] at nonzero
    | false => exact absurd (s.engine.writeStatus_errcode_of_bit_clear hd) changed
  | writeData _ d _ _ notStatus => exact absurd (s.engine.writeReg_error notStatus d).2 changed

/-- ERR and ERRCODE are cleared together, by a STATUS write with bit 2 set and by reset (R235, R265). -/
theorem of_err_cleared (c : StepChange s f) (hs : s.engine.err = true) (hf : f.err = false) :
    f.errcode = 0b00 ∧ ((∃ d, HostWrites s .status d ∧ d.getLsbD 2 = true) ∨ mover s = .reset) := by
  cases c with
  | writeStatus d hw =>
    have cleared : d.getLsbD 2 = true := by simpa [hs] using hf
    exact ⟨by simp [cleared], .inl ⟨d, hw, cleared⟩⟩
  | reset hm => exact ⟨rfl, .inr hm⟩
  | writeData _ d _ _ notStatus => simp [(s.engine.writeReg_error notStatus d).1, hs] at hf
  | none | complete | accept | rejectBusy | rejectIllegal => simp [hs] at hf

/-! The in-flight latch (R35). -/

/-- The latch is written by acceptance and by reset. -/
theorem of_latch_changed (c : StepChange s f) (changed : ¬ SameLatch s.engine f) :
    mover s = .reset ∨
      ∃ m : Mode, HostWrites s .ctrl m.word ∧ s.engine.busy = false ∧ f = s.engine.accept m := by
  cases c with
  | reset hm => exact .inl hm
  | accept m hw hb => exact .inr ⟨m, hw, hb, rfl⟩
  | writeData r d => exact absurd (s.engine.writeReg_latch r d) changed
  | none | complete | rejectBusy | rejectIllegal | writeStatus => exact absurd (by simp [SameLatch]) changed

end StepChange

/-- Settles O34: `StepChange.of_busy_set` and `StepChange.of_busy_cleared`. -/
theorem busyChangesOnlyAsStated : Obligations.BusyChangesOnlyAsStated := by
  intro s t h
  have c := stepChange_of_step h
  refine ⟨fun hs ht => ?_, c.of_busy_cleared⟩
  obtain ⟨m, hw, -⟩ := c.of_busy_set hs ht
  exact hostWrites_ctrl_word hw

/-- Settles O35: `StepChange.of_done_set` and `StepChange.of_done_cleared`. -/
theorem doneChangesOnlyAsStated : Obligations.DoneChangesOnlyAsStated := by
  intro s t h
  have c := stepChange_of_step h
  refine ⟨c.of_done_set, fun hs ht => ?_⟩
  obtain ⟨idle, m, hw⟩ | notAccepted := c.of_done_cleared hs ht
  · exact .inl ⟨idle, hostWrites_ctrl_word hw⟩
  · exact .inr notAccepted

/-- Settles O36: its four clauses are four lemmas about `StepChange`. -/
theorem errorChangesOnlyAsStated : Obligations.ErrorChangesOnlyAsStated := by
  intro s t h
  have c := stepChange_of_step h
  exact ⟨c.of_err_set, c.errcode_of_err_kept, c.err_set_of_errcode_ne, c.of_err_cleared⟩

/-- Settles O37: `StepChange.of_latch_changed`, and what acceptance latches in each mode. -/
theorem latchWrittenOnlyAtAcceptance : Obligations.LatchWrittenOnlyAtAcceptance := by
  intro s t h changed
  obtain hm | ⟨m, hw, hb, ht⟩ := (stepChange_of_step h).of_latch_changed changed
  · exact .inl hm
  · rw [ht]
    refine .inr ⟨hb, rfl, rfl, rfl, ?_⟩
    cases m with
    | enc => exact .inl ⟨hw, rfl⟩
    | dec => exact .inr ⟨hw, rfl⟩

end Sys2Proof.Machine

/-! PROOFS, memory. The order of steps (R60): what KEY and DIN read after a write, DOUT while DONE = 1, the one legal
access (R52), reads without effect (R57), and the result's dependence on the latch alone (R65). -/

namespace Sys2Proof.Machine

/-! The frame of a write of a register other than CTRL. -/

theorem EngineState.writeReg_output (e : EngineState) (r : RegName) (d : Word) : SameOutput e (e.writeReg r d) := by
  cases r <;> simp [writeReg, SameOutput]

theorem EngineState.writeReg_progress {r : RegName} (h : r ≠ .status) (e : EngineState) (d : Word) :
    SameProgress e (e.writeReg r d) :=
  ⟨e.writeReg_busy r d, e.writeReg_done h d⟩

/-! DOUT while DONE = 1 (R60 item 3). -/

/-- A change that leaves DOUT and the latch and does not set DONE keeps `DoneInv`. -/
theorem doneInv_of_same {e f : EngineState} (inv : DoneInv e) (output : SameOutput e f) (latch : SameLatch e f)
    (done : f.done = true → e.done = true) : DoneInv f := by
  intro hf
  obtain ⟨outHi, outLo⟩ := output
  obtain ⟨key, block, mode⟩ := latch
  rw [outHi, outLo, key, block, mode]
  exact inv (done hf)

/-- Every change of a step keeps `DoneInv`: completion sets DOUT with DONE, and acceptance and reset clear DONE. -/
theorem StepChange.doneInv {s : State} {f : EngineState} (c : StepChange s f) (inv : DoneInv s.engine) :
    DoneInv f := by
  cases c with
  | none | rejectBusy | rejectIllegal => exact inv
  | complete => exact fun _ => ⟨rfl, rfl⟩
  | reset | accept => exact nofun
  | writeStatus d =>
    refine doneInv_of_same inv (by simp [SameOutput]) (by simp [SameLatch]) fun h => ?_
    rw [EngineState.writeStatus_done, Bool.and_eq_true] at h
    exact h.1
  | writeData r d _ _ notStatus =>
    exact doneInv_of_same inv (s.engine.writeReg_output r d) (s.engine.writeReg_latch r d)
      fun h => (s.engine.writeReg_done notStatus d).symm.trans h

/-- Settles O39: DONE is 0 after reset, and `StepChange.doneInv`. -/
theorem doneShowsLatchedResult : Obligations.DoneShowsLatchedResult :=
  ⟨nofun, fun _ _ inv h => (stepChange_of_step h).doneInv inv⟩

/-! KEY and DIN read as last written (R60 item 1). -/

/-- KEY_HI, KEY_LO, DIN_HI and DIN_LO (R23 to R26). -/
def IsInputReg (r : RegName) : Prop := r = .keyHi ∨ r = .keyLo ∨ r = .dinHi ∨ r = .dinLo

theorem IsInputReg.ne_ctrl {r : RegName} (h : IsInputReg r) : r ≠ .ctrl := by
  rintro rfl
  simp [IsInputReg] at h

theorem IsInputReg.ne_status {r : RegName} (h : IsInputReg r) : r ≠ .status := by
  rintro rfl
  simp [IsInputReg] at h

/-- A read of an input register is answered with its word and leaves the rest of the machine (R221, R223). -/
theorem hostAccess_read_input {r : RegName} (h : IsInputReg r) (s : State) :
    hostAccess (readAccess r) s = .next (s.respond (.data (s.readReg r).1)) := by
  rw [hostAccess_read]
  obtain rfl | rfl | rfl | rfl := h <;> rfl

theorem State.readReg_of_sameInputs {r : RegName} (h : IsInputReg r) {s t : State}
    (same : SameInputs s.engine t.engine) : (t.readReg r).1 = (s.readReg r).1 := by
  obtain ⟨keyHi, keyLo, dinHi, dinLo⟩ := same
  obtain rfl | rfl | rfl | rfl := h
  · exact keyHi
  · exact keyLo
  · exact dinHi
  · exact dinLo

theorem State.readReg_writeReg_same {r : RegName} (h : IsInputReg r) {t : State} {e : EngineState} {d : Word}
    (ht : t.engine = e.writeReg r d) : (t.readReg r).1 = d := by
  obtain rfl | rfl | rfl | rfl := h <;> simp [readReg, ht, EngineState.writeReg]

theorem State.readReg_writeReg_of_ne {r r' : RegName} (h : IsInputReg r') (ne : r' ≠ r) {s t : State} {d : Word}
    (ht : t.engine = s.engine.writeReg r d) : (t.readReg r').1 = (s.readReg r').1 := by
  cases r with
  | keyHi | keyLo | dinHi | dinLo =>
    obtain rfl | rfl | rfl | rfl := h <;> simp [readReg, ht, EngineState.writeReg] at ne ⊢
  | doutHi | doutLo | ctrl | status =>
    exact readReg_of_sameInputs h (by simp [SameInputs, ht, EngineState.writeReg])

/-- A step that is the host's write of a register is that access. -/
theorem step_of_hostWrites {s : State} {r : RegName} {d : Word} (h : HostWrites s r d) :
    ∃ rest, step s = hostAccess (writeAccess r d) { s with program := rest, schedule := s.schedule.tail } := by
  obtain ⟨hm, rest, hp⟩ := h
  refine ⟨rest, ?_⟩
  rw [step_eq_turn, hm]
  simp only [turn, hostTurn, hp]

/-- The step that writes a word to an input register makes the register read as that word. -/
theorem readReg_of_hostWrites {s t : State} {r : RegName} {d : Word} (h : IsInputReg r) (hw : HostWrites s r d)
    (hs : step s = .next t) : (t.readReg r).1 = d := by
  obtain ⟨rest, hr⟩ := step_of_hostWrites hw
  rw [hr, hostAccess_write h.ne_ctrl] at hs
  cases hs
  exact State.readReg_writeReg_same h rfl

/-- A step that neither resets the engine nor writes an input register keeps what the register reads as. -/
theorem readReg_kept_by_step {s t : State} {r : RegName} (h : IsInputReg r) (hs : step s = .next t)
    (notReset : mover s ≠ .reset) (notWritten : ∀ d, ¬ HostWrites s r d) : (t.readReg r).1 = (s.readReg r).1 := by
  have c := stepChange_of_step hs
  generalize ht : t.engine = f at c
  cases c with
  | reset hm => exact absurd hm notReset
  | writeData r' d hw =>
    have ne : r ≠ r' := by
      rintro rfl
      exact notWritten d hw
    exact State.readReg_writeReg_of_ne h ne ht
  | none | complete | accept | rejectBusy | rejectIllegal | writeStatus =>
    exact State.readReg_of_sameInputs h (by simp [SameInputs, ht])

/-- Along a run that starts with the write of a word to an input register and does not disturb the register after it,
the register reads as that word. -/
theorem readReg_along_run {r : RegName} {d : Word} (h : IsInputReg r) (run : Nat → State) (k : Nat)
    (steps : ∀ i ≤ k, step (run i) = .next (run (i + 1))) (written : HostWrites (run 0) r d)
    (undisturbed : ∀ i, 1 ≤ i → i ≤ k → mover (run i) ≠ .reset ∧ ∀ d', ¬ HostWrites (run i) r d') :
    ((run (k + 1)).readReg r).1 = d := by
  induction k with
  | zero => exact readReg_of_hostWrites h written (steps 0 le_rfl)
  | succ k ih =>
    obtain ⟨notReset, notWritten⟩ := undisturbed (k + 1) (by omega) le_rfl
    calc ((run (k + 2)).readReg r).1
        = ((run (k + 1)).readReg r).1 := readReg_kept_by_step h (steps (k + 1) le_rfl) notReset notWritten
      _ = d := ih (fun i hi => steps i (by omega)) fun i h1 hi => undisturbed i h1 (by omega)

/-- Settles O15: `readReg_along_run`, and the frame of the write. -/
theorem readAfterWriteReturnsWritten : Obligations.ReadAfterWriteReturnsWritten := by
  intro r d (h : IsInputReg r)
  refine ⟨fun run k steps written undisturbed => ?_, fun s t ht => ?_⟩
  · rw [hostAccess_read_input h, readReg_along_run h run k steps written undisturbed]
  · rw [hostAccess_write h.ne_ctrl] at ht
    cases ht
    exact ⟨s.engine.writeReg_output r d, s.engine.writeReg_latch r d, s.engine.writeReg_progress h.ne_status d,
      s.engine.writeReg_error h.ne_status d, fun r' ne input => State.readReg_writeReg_of_ne input ne rfl⟩

/-! Which accesses succeed (R52, R261), and what a read leaves (R57). -/

theorem hostWrite_illegal {off : Fin 64} {n : Nat} (h : accessOk off n = false) (data : Word) (s : State) :
    hostWrite off n data s = .next (s.respond (.busError off none)) := by
  simp [hostWrite, h, State.busError]

/-- Settles O20: a refused access by `hostRead_illegal` and `hostWrite_illegal`, a legal one by
`hostRead_legal_responses` and `hostWrite_legal`. -/
theorem accessSucceedsExactlyWhenLegal : Obligations.AccessSucceedsExactlyWhenLegal := by
  rintro s ⟨dir, off, n⟩
  refine ⟨fun bad => ?_, fun width aligned => ?_⟩
  · have refused : accessOk off n = false := by rwa [← Bool.not_eq_true, accessOk_iff]
    constructor
    · rintro rfl
      simp only [hostAccess, hostRead_illegal refused]
      rfl
    · rintro d rfl
      exact hostWrite_illegal refused d s
  · have legal : accessOk off n = true := (accessOk_iff off n).2 ⟨width, aligned⟩
    cases dir with
    | read => exact ⟨_, _, rfl, hostRead_legal_responses legal s, .inl ⟨_, rfl, rfl⟩⟩
    | write d =>
      obtain ⟨f, hf⟩ := hostWrite_legal legal d s
      exact ⟨_, .written, hf, rfl, .inr ⟨d, rfl, rfl⟩⟩

/-- Settles O21: a read adds a response and takes at most one draw (`hostRead_state`). -/
theorem readsChangeNoEngineState : Obligations.ReadsChangeNoEngineState := by
  intro s t off n h
  cases h
  exact ⟨hostRead_engine off n s, hostRead_program off n s, hostRead_schedule off n s⟩

/-- Settles O27: completion reads nothing but the latch. -/
theorem resultDependsOnLatchOnly : Obligations.ResultDependsOnLatchOnly := by
  rintro e f ⟨key, block, mode⟩
  simp only [SameOutput, EngineState.complete_doutHi, EngineState.complete_doutLo, key, block, mode, and_self]

end Sys2Proof.Machine

/-! PROOFS, encoding. The decoder against the encoder (R70 to R73), host lines as operations (R76 to R79), and the step
that runs a command word or one read of a POLL (R60, R77, R228). -/

namespace Sys2Proof.Machine

/-! The decoder and the encoder are inverse. -/

/-- The law of command words holds of every command. -/
theorem commandWord_statement (i : Instr) : Laws.CommandWord.Statement i := by
  cases i with
  | nop => exact Laws.CommandWord.nop
  | encrypt => exact Laws.CommandWord.encrypt
  | decrypt => exact Laws.CommandWord.decrypt

@[simp] theorem decodeOp_opOf (i : Instr) : decodeOp (opOf i) = .command i := by
  cases i <;> rfl

theorem decodeCmd_of_rsvd_zero {v : Word} (h : rsvdField v = 0) : decodeCmd v = decodeOp (opField v) :=
  if_pos h

theorem decodeCmd_of_rsvd_ne_zero {v : Word} (h : rsvdField v ≠ 0) : decodeCmd v = .illegal .reservedBits :=
  if_neg h

@[simp] theorem decodeCmd_encode (i : Instr) : decodeCmd (encode i) = .command i := by
  obtain ⟨noReservedBits, op, -⟩ := commandWord_statement i
  rw [decodeCmd_of_rsvd_zero noReservedBits, op, decodeOp_opOf]

theorem decodeCmd_eq_command_iff {v : Word} {i : Instr} : decodeCmd v = .command i ↔ v = encode i :=
  ⟨eq_encode_of_decodeCmd, fun h => h ▸ decodeCmd_encode i⟩

theorem DecodedCmd.toOption_eq_some_iff {d : DecodedCmd} {i : Instr} : d.toOption = some i ↔ d = .command i := by
  cases d <;> simp [DecodedCmd.toOption]

/-- A table word of the full width is decoded as the word of its low 32 bits. -/
theorem decodeTableWord_eq_some_iff {w : Nat} {i : Instr} :
    decodeTableWord 32 w = some i ↔ decodeCmd (BitVec.ofNat 32 (w % 2 ^ 32)) = .command i := by
  rw [decodeTableWord, if_pos le_rfl, DecodedCmd.toOption_eq_some_iff]

theorem decodeTableWord_toNat_eq_some_iff {v : Word} {i : Instr} :
    decodeTableWord 32 v.toNat = some i ↔ decodeCmd v = .command i := by
  rw [decodeTableWord_eq_some_iff, Nat.mod_eq_of_lt v.isLt, BitVec.ofNat_toNat, BitVec.setWidth_eq]

/-- Settles O2: `decodeCmd_eq_command_iff`, and the table decoder on a 32-bit word is `decodeCmd`. -/
theorem decodeEncodeAgree : Obligations.DecodeEncodeAgree := fun i _ _ =>
  ⟨decodeCmd_eq_command_iff, decodeTableWord_toNat_eq_some_iff.2 (decodeCmd_encode i)⟩

/-- A word is illegal exactly when it is the word of no command (R72). -/
theorem exists_decodeCmd_illegal_iff (v : Word) : (∃ why, decodeCmd v = .illegal why) ↔ ∀ i, v ≠ encode i := by
  simp only [ne_eq, ← decodeCmd_eq_command_iff]
  cases decodeCmd v with
  | command i => simp
  | illegal why => simp

/-- Settles O1: the words of the three commands, and the illegal words are the others. -/
theorem exactlyThreeWordsDecode : Obligations.ExactlyThreeWordsDecode := by
  intro v
  refine ⟨decodeCmd_eq_command_iff, decodeCmd_eq_command_iff, decodeCmd_eq_command_iff,
    (exists_decodeCmd_illegal_iff v).trans ⟨fun h => ⟨h .nop, h .encrypt, h .decrypt⟩, ?_⟩⟩
  rintro ⟨notNop, notEncrypt, notDecrypt⟩ i
  cases i with
  | nop => exact notNop
  | encrypt => exact notEncrypt
  | decrypt => exact notDecrypt

/-- Settles O3: three encodings, a word with RSVD = 0 and OP = 0b11, and three words with a RSVD bit set. -/
theorem sampleWordsDecode : Obligations.SampleWordsDecode :=
  ⟨decodeCmd_encode .nop, decodeCmd_encode .encrypt, decodeCmd_encode .decrypt,
    decodeCmd_of_rsvd_zero (by decide), decodeCmd_of_rsvd_ne_zero (by decide),
    decodeCmd_of_rsvd_ne_zero (by decide), decodeCmd_of_rsvd_ne_zero (by decide)⟩

/-! Host lines (R77, R78) and programs (R79) as operations. -/

@[simp] theorem refOffset_reg (r : RegName) : refOffset (.reg r) = some (regOffset r) := rfl

@[simp] theorem refOffset_raw_val (off : Fin 64) : refOffset (.raw off.val) = some off :=
  dif_pos off.isLt

theorem refOffset_raw_outside {n : Nat} (h : 0x40 ≤ n) : refOffset (.raw n) = none :=
  dif_neg (Nat.not_lt.2 h)

/-! A WR, RD or POLL line is one operation at the offset its register reference names, if it names one. -/

section
variable {r : RegRef} {off : Fin 64}

theorem lineOps_wr (h : refOffset r = some off) (imm : Word) : lineOps (.wr r imm) = some [wrOp off imm] := by
  simp [lineOps, h]

theorem lineOps_rd (h : refOffset r = some off) (name : String) : lineOps (.rd r name) = some [rdOp off] := by
  simp [lineOps, h]

theorem lineOps_poll (h : refOffset r = some off) (mask value : Word) :
    lineOps (.poll r mask value) = some [.poll off mask value] := by
  simp [lineOps, h]

theorem lineOps_of_refOffset_none (h : refOffset r = none) (imm mask value : Word) (name : String) :
    lineOps (.wr r imm) = none ∧ lineOps (.rd r name) = none ∧ lineOps (.poll r mask value) = none := by
  simp [lineOps, h]

end

theorem assemble_nil : assemble [] = some [] := rfl

theorem assemble_cons {l : HostLine} {ops : List HostOp} (h : lineOps l = some ops) (rest : List HostLine) :
    assemble (l :: rest) = (assemble rest).map (ops ++ ·) := by
  rw [assemble, h]
  cases assemble rest <;> rfl

theorem assemble_cons_none {l : HostLine} (h : lineOps l = none) (rest : List HostLine) :
    assemble (l :: rest) = none := by
  rw [assemble, h]

/-- A program encodes as its lines' operations in order, or not at all if a line has no encoding (R79). -/
theorem assemble_eq_mapM (lines : List HostLine) : assemble lines = (lines.mapM lineOps).map List.flatten := by
  induction lines with
  | nil => rfl
  | cons l rest ih =>
    rw [List.mapM_cons]
    cases h : lineOps l with
    | none => exact assemble_cons_none h rest
    | some ops =>
      rw [assemble_cons h, ih]
      cases rest.mapM lineOps <;> rfl

/-- Settles O60: a line is one operation at its offset, and `assemble_eq_mapM`. -/
theorem hostLinesEncodeAsTriples : Obligations.HostLinesEncodeAsTriples :=
  ⟨fun r => lineOps_wr (refOffset_reg r), fun r => lineOps_rd (refOffset_reg r),
    fun r => lineOps_poll (refOffset_reg r),
    fun off imm mask value name =>
      have named := refOffset_raw_val off
      ⟨lineOps_wr named imm, lineOps_rd named name, lineOps_poll named mask value⟩,
    fun _ imm mask value name outside => lineOps_of_refOffset_none (refOffset_raw_outside outside) imm mask value name,
    rfl, rfl, assemble_eq_mapM⟩

/-- Two lines of one operation each encode as the two in order. -/
theorem assemble_pair {l m : HostLine} {a b : HostOp} (hl : lineOps l = some [a]) (hm : lineOps m = some [b]) :
    assemble [l, m] = some [a, b] := by
  rw [assemble_cons hl, assemble_cons hm, assemble_nil]
  rfl

/-- Settles O4: each pseudo-instruction's operations are those of the one or two lines it stands for. -/
theorem pseudoInstructionsExpand : Obligations.PseudoInstructionsExpand := by
  have wr (r : RegName) (imm : Word) := lineOps_wr (refOffset_reg r) imm
  have rd (r : RegName) (name : String) := lineOps_rd (refOffset_reg r) name
  exact ⟨(wr .ctrl 0).symm, (wr .ctrl 1).symm, (wr .ctrl 2).symm,
    fun k => (assemble_pair (wr .keyHi (hiWord k)) (wr .keyLo (loWord k))).symm,
    fun b => (assemble_pair (wr .dinHi (hiWord b)) (wr .dinLo (loWord b))).symm,
    (lineOps_poll (refOffset_reg .status) 1 0).symm,
    fun _ hi lo => (assemble_pair (rd .doutHi hi) (rd .doutLo lo)).symm,
    (wr .status 6).symm, fun _ => rfl, fun _ => rfl⟩

/-! The host's step, by its next operation. -/

/-- The step that makes the host's next access. -/
theorem step_access {s : State} {a : Access} {rest : List HostOp} (hm : mover s = .host)
    (hp : s.program = .access a :: rest) :
    step s = hostAccess a { s with program := rest, schedule := s.schedule.tail } := by
  rw [step_eq_turn, hm]
  simp only [turn, hostTurn, hp]

/-- The step that makes one read of the host's POLL (R77). -/
theorem step_poll {s : State} {off : Fin 64} {mask value : Word} {rest : List HostOp} (hm : mover s = .host)
    (hp : s.program = .poll off mask value :: rest) :
    step s = .next { (hostRead off 4 s).2 with
      schedule := s.schedule.tail
      program := if (hostRead off 4 s).1 &&& mask = value then rest else s.program } := by
  have read := hostRead_with off 4 s s.program s.schedule.tail
  rw [step_eq_turn, hm]
  simp only [turn, hostTurn, hp, hostPoll] at read ⊢
  rw [read]
  split <;> rfl

/-- Settles O25: `step_poll`, by whether the POLL's condition holds. -/
theorem pollRepeatsItsRead : Obligations.PollRepeatsItsRead := by
  intro s off mask value rest hm hp
  exact ⟨_, step_poll hm hp, hostRead_engine off 4 s, rfl, rfl, fun holds => if_pos holds, fun fails => if_neg fails⟩

/-- A word of a command written to CTRL runs the command (R228). -/
theorem ctrlWrite_of_command {v : Word} {i : Instr} (h : decodeCmd v = .command i) (s : State) :
    ctrlWrite v s = exec i s := by
  rw [ctrlWrite, h]

/-- Settles O5: the step is the host's access (`step_access`), a CTRL write of a command word. -/
theorem stepRunsDecodedCommand : Obligations.StepRunsDecodedCommand := by
  intro s v i rest hm hp hd
  rw [step_access hm hp, hostAccess_ctrl, ctrlWrite_of_command hd]
  rfl

/-- Taking the placed access from the program and the schedule undoes the placing. -/
theorem delivered_withFetchWord (s : State) (n w : Nat) :
    delivered (s.withFetchWord n w) s.program = s.respond .written := rfl

/-- Settles O6: `stepRunsDecodedCommand` for the state with the word placed. -/
theorem fetchWordRunsNext : Obligations.FetchWordRunsNext := by
  intro s w i h
  rw [stepRunsDecodedCommand (s.withFetchWord 32 w) _ i s.program rfl rfl (decodeTableWord_eq_some_iff.1 h),
    delivered_withFetchWord]

end Sys2Proof.Machine

/-! PROOFS, function. The byte form of a block (R54, R100, R101) and the initial permutation with its inverse (R102 to
R104). -/

namespace Sys2Proof.Machine

/-! A table that undoes another. -/

/-- If `T` sends each entry of `S` back to that entry's place, then `permute S` undoes `permute T` (R16). The table
index of the standard bit number `S[i]` is `S[i] - 1`. -/
theorem permute_permute_of_inverse {n : Nat} [NeZero n] {S T : Vector Nat n}
    (range : ∀ i : Fin n, 1 ≤ S.get i ∧ S.get i ≤ n)
    (inverse : ∀ i : Fin n, T.get (Fin.ofNat n (S.get i - 1)) = i.val + 1) (v : BitVec n) :
    permute S (permute T v) = v := by
  apply eq_of_stdBit_eq
  intro j h1 h2
  let i : Fin n := ⟨j - 1, by omega⟩
  obtain ⟨lo, hi⟩ := range i
  have index : Fin.ofNat n (S.get i - 1) = ⟨S.get i - 1, by omega⟩ := Fin.ext (Nat.mod_eq_of_lt (by omega))
  have entry : T.get ⟨S.get i - 1, by omega⟩ = j := by rw [← index, inverse, Nat.sub_add_cancel h1]
  rw [stdBit_permute S _ j h1 h2, stdBit_permute T v _ lo hi, entry]

theorem ipTable_range : ∀ i : Fin 64, 1 ≤ ipTable.get i ∧ ipTable.get i ≤ 64 := by decide

theorem fpTable_range : ∀ i : Fin 64, 1 ≤ fpTable.get i ∧ fpTable.get i ≤ 64 := by decide

theorem fpTable_get_ipTable : ∀ i : Fin 64, fpTable.get (Fin.ofNat 64 (ipTable.get i - 1)) = i.val + 1 := by decide

theorem ipTable_get_fpTable : ∀ i : Fin 64, ipTable.get (Fin.ofNat 64 (fpTable.get i - 1)) = i.val + 1 := by decide

@[simp] theorem fp_ip (v : Block) : fp (ip v) = v := permute_permute_of_inverse fpTable_range ipTable_get_fpTable v

@[simp] theorem ip_fp (v : Block) : ip (fp v) = v := permute_permute_of_inverse ipTable_range fpTable_get_ipTable v

/-- Settles O44: each table sends the other's entries back to their places, so each permutation undoes the other. -/
theorem permutationsAreInverse : Obligations.PermutationsAreInverse :=
  ⟨fun v => ⟨fp_ip v, ip_fp v⟩, fpTable_get_ipTable⟩

/-! Bytes and blocks: byte `i` of a block is its bits from `56 - 8i` up, in either direction. -/

/-- The HI word of a block joins its first four bytes and the LO word the other four (R54, R100). -/
theorem blockFromBytes_eq_words (b : Vector Byte 8) :
    blockFromBytes b =
      ((b[0] ++ b[1] ++ b[2] ++ b[3] : BitVec 32) ++ (b[4] ++ b[5] ++ b[6] ++ b[7] : BitVec 32) : BitVec 64) := by
  rw [blockFromBytes, BitVec.append_assoc', BitVec.append_assoc', BitVec.append_assoc']
  rfl

theorem getLsbD_blockFromBytes (b : Vector Byte 8) {i r : Nat} (hi : i < 8) (hr : r < 8) :
    (blockFromBytes b).getLsbD (r + (56 - 8 * i)) = b[i].getLsbD r := by
  have above (n : Nat) (h : 8 ≤ n) : ¬ r + n < 8 := by omega
  simp only [blockFromBytes, BitVec.getLsbD_append]
  interval_cases i <;> simp [hr, above]

theorem getLsbD_blockByte (v : Block) (i : Nat) {r : Nat} (hr : r < 8) :
    (blockByte v i).getLsbD r = v.getLsbD (r + (56 - 8 * i)) := by
  simp [blockByte, hr, Nat.add_comm]

theorem getElem_bytesFromBlock (v : Block) {i : Nat} (hi : i < 8) : (bytesFromBlock v)[i] = blockByte v i := by
  interval_cases i <;> rfl

@[simp] theorem bytesFromBlock_blockFromBytes (b : Vector Byte 8) : bytesFromBlock (blockFromBytes b) = b := by
  apply Vector.ext
  intro i hi
  apply BitVec.eq_of_getLsbD_eq
  intro r hr
  rw [getElem_bytesFromBlock _ hi, getLsbD_blockByte _ i hr, getLsbD_blockFromBytes b hi hr]

@[simp] theorem blockFromBytes_bytesFromBlock (v : Block) : blockFromBytes (bytesFromBlock v) = v := by
  apply BitVec.eq_of_getLsbD_eq
  intro n hn
  have hr : n % 8 < 8 := Nat.mod_lt n (by decide)
  have place : n % 8 + (56 - 8 * (7 - n / 8)) = n := by omega
  rw [← place, getLsbD_blockFromBytes _ (by omega) hr, getElem_bytesFromBlock _ (by omega), getLsbD_blockByte _ _ hr]

/-- Settles O43: the two conversions agree bit by bit, and a block splits into words between bytes 3 and 4. -/
theorem bytesAndBlocksAgree : Obligations.BytesAndBlocksAgree := by
  refine ⟨fun b => ⟨bytesFromBlock_blockFromBytes b, ?_⟩, blockFromBytes_bytesFromBlock⟩
  rw [blockFromBytes_eq_words]
  exact ⟨hiWord_append _ _, loWord_append _ _⟩

end Sys2Proof.Machine

/-! PROOFS, function. The combined tables and the round datapath they serve (R130, R140, R154). -/

namespace Sys2Proof.Machine

/-- Settles O46: `sp_eq_spGenerated` evaluates both sides at each of the 8 x 64 entries. -/
theorem literalTablesEqualGenerated : Obligations.LiteralTablesEqualGenerated :=
  sp_eq_spGenerated

/-- Settles O49: each lookup index is an S-box input (`lookupIndex_pack`), each table word is the generated one
(`sp_eq_spGenerated`), and P distributes over the OR of the S-box outputs (`pPermute_joinNibbles_sBox`); together these
are `roundOutput_pack`. -/
theorem roundDatapathRefinesStandard : Obligations.RoundDatapathRefinesStandard :=
  roundOutput_pack

end Sys2Proof.Machine

/-! PROOFS, function. The network undoes itself with its subkeys in reverse (R173, R177), and the known-answer vector. -/

namespace Sys2Proof.Machine

/-- Rounds from the exchanged halves, with the last pair first, undo the rounds (R173). -/
theorem foldl_feistelRound_undo (pairs : List SubkeyPair) (h : Halves) :
    pairs.reverse.foldl feistelRound (pairs.foldl feistelRound h).exchange = h.exchange := by
  induction pairs generalizing h with
  | nil => rfl
  | cons kp rest ih =>
    rw [List.foldl_cons, List.reverse_cons, List.foldl_append, ih]
    exact feistelRound_undo h kp

/-- The final placement exchanges the halves, so a second run with the pairs reversed gives the block back (R174). -/
theorem runRounds_reverse_runRounds (pairs : List SubkeyPair) (v : Block) :
    runRounds pairs.reverse (runRounds pairs v) = v := by
  have undone := foldl_feistelRound_undo pairs (splitBlock v)
  rw [runRounds, runRounds, splitBlock_joinSwapped]
  calc joinSwapped (pairs.reverse.foldl feistelRound (pairs.foldl feistelRound (splitBlock v)).exchange)
    _ = joinSwapped (splitBlock v).exchange := by rw [undone]
    _ = v := hiWord_append_loWord v

/-- DES_Decrypt undoes DES_Encrypt (R177). -/
theorem desDecrypt_desEncrypt (key block : Block) : desDecrypt key (desEncrypt key block) = block := by
  rw [desDecrypt, desEncrypt, ip_fp, decryptBlock, encryptBlock, runRounds_reverse_runRounds, fp_ip]

/-- The source's known-answer vector, by evaluating the engine's function (R175). -/
theorem desEncrypt_knownAnswer : desEncrypt 0x133457799BBCDFF1 0x0123456789ABCDEF = 0x85E813540F0AB405 := by
  decide +kernel

/-- Settles O59: `desEncrypt_knownAnswer`, which `desDecrypt_desEncrypt` undoes. -/
theorem knownAnswerVector : Obligations.KnownAnswerVector := by
  refine ⟨desEncrypt_knownAnswer, ?_⟩
  rw [← desEncrypt_knownAnswer]
  exact desDecrypt_desEncrypt _ _

end Sys2Proof.Machine

/-! PROOFS, key schedule. The lookup slots (R153, R198), and what complementing the key and the block does on the way
through the schedule and the rounds (R156, R179). -/

namespace Sys2Proof.Machine

/-- Settles O48, by `lookupIndex_pack`: a case for each table, since groups 1, 3, 5, 7 lie in `a` and the others in `b`. -/
theorem lookupSlots : Obligations.LookupSlots :=
  lookupIndex_pack

/-! Complement passes through the bit-vector operations of the schedule and the network. -/

/-- The library's lemma leaves out the field at the top end of the word, which is where `C0` and a block's HI word lie. -/
theorem extractLsb'_not {w : Nat} (v : BitVec w) {start len : Nat} (h : start + len ≤ w) :
    (~~~v).extractLsb' start len = ~~~v.extractLsb' start len := by
  apply BitVec.eq_of_getLsbD_eq
  intro i hi
  simp [hi, show start + i < w by omega]

/-- Bit `i` of a rotation comes from one of the two shifted values, whatever the amount, and the other has a 0 there. -/
theorem rotl_not {n : Nat} (v : BitVec n) (s : Nat) : rotl (~~~v) s = ~~~rotl v s := by
  apply BitVec.eq_of_getLsbD_eq
  intro i hi
  by_cases wrapped : i < s
  · simp [rotl, wrapped, hi, show n - s + i < n by omega]
  · have above (u : BitVec n) : u.getLsbD (n - s + i) = false := BitVec.getLsbD_of_ge u _ (by omega)
    simp [rotl, wrapped, hi, above]

theorem hiWord_not (v : Block) : hiWord (~~~v) = ~~~hiWord v := extractLsb'_not v (by decide)

theorem loWord_not (v : Block) : loWord (~~~v) = ~~~loWord v := extractLsb'_not v (by decide)

theorem ip_not (v : Block) : ip (~~~v) = ~~~ip v := permute_not ipTable ipTable_range v

theorem fp_not (v : Block) : fp (~~~v) = ~~~fp v := permute_not fpTable fpTable_range v

/-! The schedule: the complemented key has the complemented subkeys. -/

theorem pc1_not (key : Block) : pc1 (~~~key) = ~~~pc1 key := permute_not pc1Table (by decide) key

theorem cHalf_not (key : Block) (i : Nat) : cHalf (~~~key) i = ~~~cHalf key i := by
  induction i with
  | zero => rw [cHalf, pc1_not, extractLsb'_not _ (by decide), cHalf]
  | succ i ih => rw [cHalf_succ, ih, rotl_not, cHalf_succ]

theorem dHalf_not (key : Block) (i : Nat) : dHalf (~~~key) i = ~~~dHalf key i := by
  induction i with
  | zero => rw [dHalf, pc1_not, extractLsb'_not _ (by decide), dHalf]
  | succ i ih => rw [dHalf_succ, ih, rotl_not, dHalf_succ]

theorem roundKey_not (key : Block) (i : Nat) : roundKey (~~~key) i = ~~~roundKey key i := by
  rw [roundKey, cHalf_not, dHalf_not, ← BitVec.not_append, permute_not pc2Table (by decide), roundKey]

/-! The rounds: `f` does not see the complement, so a round hands it on to both halves. -/

theorem expand_not (r : Word) : expand (~~~r) = ~~~expand r := permute_not eTable (by decide) r

/-- The two complements cancel in `E(r) ^ k`, which is all that `f` reads of its operands (R156). -/
theorem fRound_not_not (r : Word) (k : Subkey) : fRound (~~~r) (~~~k) = fRound r k := by
  have cancel : ~~~expand r ^^^ ~~~k = expand r ^^^ k := by
    rw [← BitVec.not_xor_left, ← BitVec.not_xor_right, BitVec.not_not]
  rw [fRound, expand_not, cancel, fRound]

/-- Both halves complemented. -/
def Halves.complement (h : Halves) : Halves := { left := ~~~h.left, right := ~~~h.right }

theorem splitBlock_not (v : Block) : splitBlock (~~~v) = (splitBlock v).complement := by
  rw [splitBlock, hiWord_not, loWord_not, splitBlock, Halves.complement]

theorem joinSwapped_complement (h : Halves) : joinSwapped h.complement = ~~~joinSwapped h :=
  BitVec.not_append.symm

theorem standardHalves_not (keys : Nat → Subkey) (v : Block) (n : Nat) :
    standardHalves (fun i => ~~~keys i) (~~~v) n = (standardHalves keys v n).complement := by
  induction n with
  | zero => exact splitBlock_not v
  | succ n ih =>
    simp only [standardHalves, ih, Halves.complement, fRound_not_not, BitVec.not_xor_left]

theorem standardCipher_not (keys : Nat → Subkey) (block : Block) :
    standardCipher (fun i => ~~~keys i) (~~~block) = ~~~standardCipher keys block := by
  rw [standardCipher, ip_not, standardHalves_not, joinSwapped_complement, fp_not, standardCipher]

/-- The engine's ENCRYPT as the standard's function, the first half of `engineComputesStandardDes`. -/
theorem desEncrypt_eq_standardCipher (key block : Block) :
    desEncrypt key block = standardCipher (roundKey key) block :=
  (engineComputesStandardDes key block).1

/-- Settles O53: every subkey is complemented (`roundKey_not`), `f` cancels the complement (`fRound_not_not`), and the
halves carry it through the rounds (`standardHalves_not`). -/
theorem cipherComplement : Obligations.CipherComplement := by
  intro key block
  have subkeys : roundKey (~~~key) = fun i => ~~~roundKey key i := funext (roundKey_not key)
  rw [desEncrypt_eq_standardCipher, subkeys, standardCipher_not, ← desEncrypt_eq_standardCipher]

end Sys2Proof.Machine

/-! PROOFS, commands. The three commands (R228 to R233), the engine's turn that completes them (R237), and reset during an
operation (R292). -/

namespace Sys2Proof.Machine

/-! What a command does: NOP nothing, the two others an operation of their mode. -/

/-- The command that starts an operation of this mode (R71). -/
def Mode.command : Mode → Instr
  | .enc => .encrypt
  | .dec => .decrypt

theorem exec_nop (s : State) : exec .nop s = .next s := rfl

theorem exec_command (m : Mode) (s : State) : exec m.command s = .next (s.startOperation m) := by
  cases m <;> rfl

theorem exec_command_idle {s : State} (idle : s.engine.busy = false) (m : Mode) :
    exec m.command s = .next (s.withEngine (s.engine.accept m)) := by
  rw [exec_command, State.startOperation_idle idle]

theorem exec_command_busy {s : State} (busy : s.engine.busy = true) (m : Mode) :
    exec m.command s = .next (s.reject busyCommand) := by
  rw [exec_command, State.startOperation_busy busy]

theorem eq_nop_or_command (i : Instr) : i = .nop ∨ ∃ m : Mode, i = m.command := by
  cases i with
  | nop => exact .inl rfl
  | encrypt => exact .inr ⟨.enc, rfl⟩
  | decrypt => exact .inr ⟨.dec, rfl⟩

/-- Settles O7: `exec_nop`, of the word of NOP. -/
theorem nopChangesNothing : Obligations.NopChangesNothing :=
  ⟨decodeCmd_encode .nop, exec_nop⟩

/-- Settles O12: a rejection writes ERR and ERRCODE only, an acceptance the latch, DOUT, BUSY and DONE only. -/
theorem commandFrame : Obligations.CommandFrame := by
  intro i s t h
  obtain rfl | ⟨m, rfl⟩ := eq_nop_or_command i
  · cases h
    simp [SameInputs, SameHost, SameLatch, SameOutput, SameProgress, SameError]
  have notNop : m.command ≠ .nop := by cases m <;> nofun
  cases busy : s.engine.busy with
  | true =>
    cases (exec_command_busy busy m).symm.trans h
    simp [SameInputs, SameHost, SameLatch, SameOutput, SameProgress, notNop]
  | false =>
    cases (exec_command_idle busy m).symm.trans h
    simp [SameInputs, SameHost, SameError, notNop]

/-! The engine's turn. -/

theorem step_engine {s : State} (h : mover s = .engine) :
    step s = .next ({ s with schedule := s.schedule.tail } : State).engineTurn := by
  rw [step_eq_turn, h]
  rfl

theorem step_reset {s : State} (h : mover s = .reset) :
    step s = .next ({ s with schedule := s.schedule.tail } : State).resetEngine := by
  rw [step_eq_turn, h]
  rfl

theorem mover_cons {s : State} {a : Agent} {rest : List Agent} (h : s.schedule = a :: rest) : mover s = a := by
  simp [mover, h]

theorem mover_nil {s : State} (h : s.schedule = []) : mover s = defaultAgent s := by
  simp [mover, h]

theorem step_engine_busy {s : State} (h : mover s = .engine) (busy : s.engine.busy = true) :
    step s = .next { s with schedule := s.schedule.tail, engine := s.engine.complete } := by
  rw [step_engine h, State.engineTurn_busy (s := { s with schedule := s.schedule.tail }) busy]
  rfl

theorem step_engine_idle {s : State} (h : mover s = .engine) (idle : s.engine.busy = false) :
    step s = .next { s with schedule := s.schedule.tail } := by
  rw [step_engine h, State.engineTurn_idle (s := { s with schedule := s.schedule.tail }) idle]

/-- Settles O26: `step_engine_busy` and `step_engine_idle`. -/
theorem completionStep : Obligations.CompletionStep := by
  intro s rest h
  have tail : s.schedule.tail = rest := by rw [h, List.tail_cons]
  refine ⟨fun busy => ?_, fun idle => ?_⟩
  · rw [step_engine_busy (mover_cons h) busy, tail]
    rfl
  · rw [step_engine_idle (mover_cons h) idle, tail]

/-- Settles O30: the reset leaves BUSY = 0, so the engine's turn after it does nothing. -/
theorem resetAbandonsOperation : Obligations.ResetAbandonsOperation := by
  intro s rest h
  rw [core_run_succ (step_reset (mover_cons h)), h, core_run_succ (step_engine_idle rfl rfl)]
  rfl

/-- A command accepted in an idle state is completed by the engine's turn with the result of that state's KEY and DIN. -/
theorem dout_after_command {s t : State} {m : Mode} (idle : s.engine.busy = false) (h : exec m.command s = .next t) :
    t.engineTurn.engine.doutHi = some (hiWord (desResult m s.engine.key s.engine.din)) ∧
    t.engineTurn.engine.doutLo = some (loWord (desResult m s.engine.key s.engine.din)) := by
  cases (exec_command_idle idle m).symm.trans h
  rw [State.engineTurn_busy rfl]
  exact ⟨rfl, rfl⟩

/-- Settles O8: `exec_command_idle` and `dout_after_command`, for ENCRYPT. -/
theorem encryptAccepted : Obligations.EncryptAccepted :=
  ⟨decodeCmd_encode .encrypt, fun _ idle =>
    ⟨exec_command_idle idle .enc, fun _ h => dout_after_command (m := .enc) idle h⟩⟩

/-- Settles O9: `exec_command_idle` and `dout_after_command`, for DECRYPT. -/
theorem decryptAccepted : Obligations.DecryptAccepted :=
  ⟨decodeCmd_encode .decrypt, fun _ idle =>
    ⟨exec_command_idle idle .dec, fun _ h => dout_after_command (m := .dec) idle h⟩⟩

/-- Settles O10: `exec_command_busy`; the rejection leaves BUSY and the latch to the engine's turn. -/
theorem commandWhileBusyRejected : Obligations.CommandWhileBusyRejected := by
  intro s i h busy
  obtain ⟨m, rfl⟩ : ∃ m : Mode, i = m.command := by
    obtain rfl | rfl := h
    · exact ⟨.enc, rfl⟩
    · exact ⟨.dec, rfl⟩
  refine ⟨exec_command_busy busy m, fun t ht => ?_⟩
  cases (exec_command_busy busy m).symm.trans ht
  rw [State.engineTurn_busy (by simpa using busy)]
  simp [SameOutput, SameProgress]

/-! A rejected word (R232, R266). -/

/-- A word with a RSVD bit set or OP = 0b11 decodes to no command (R73). -/
theorem exists_decodeCmd_illegal_of_fields {v : Word} (h : rsvdField v ≠ 0 ∨ opField v = 0b11) :
    ∃ why, decodeCmd v = .illegal why := by
  by_cases noReservedBits : rsvdField v = 0
  · have reservedOp : opField v = 0b11 := h.resolve_left (not_not_intro noReservedBits)
    refine ⟨.reservedOp, ?_⟩
    rw [decodeCmd_of_rsvd_zero noReservedBits, reservedOp]
    rfl
  · exact ⟨.reservedBits, decodeCmd_of_rsvd_ne_zero noReservedBits⟩

/-- An illegal word written to CTRL is recorded, whatever BUSY is (R232). -/
theorem ctrlWrite_of_illegal {v : Word} {why : IllegalWord} (h : decodeCmd v = .illegal why) (s : State) :
    ctrlWrite v s = .next (s.reject illegalCommand) := by
  rw [ctrlWrite, h]

/-- Settles O11: the step is the host's access (`step_access`), a CTRL write of an illegal word. -/
theorem illegalCommandRecorded : Obligations.IllegalCommandRecorded := by
  intro s v rest hm hp fields
  obtain ⟨why, illegal⟩ := exists_decodeCmd_illegal_of_fields fields
  rw [step_access hm hp, hostAccess_ctrl, ctrlWrite_of_illegal illegal]
  rfl

/-! An operation in flight: the host cannot disturb it (R298), and the default agent completes it (R237). -/

/-- No turn of the host ends an operation in flight or writes its latch. -/
theorem StepChange.inFlight_of_host {s : State} {f : EngineState} (c : StepChange s f) (host : mover s = .host)
    (busy : s.engine.busy = true) : f.busy = true ∧ SameLatch s.engine f := by
  cases c with
  | none | rejectBusy | rejectIllegal => exact ⟨busy, rfl, rfl, rfl⟩
  | reset hm | complete hm => rw [host] at hm; exact nomatch hm
  | accept _ _ idle => rw [busy] at idle; exact nomatch idle
  | writeStatus d => exact ⟨by simpa using busy, by simp [SameLatch]⟩
  | writeData r d => exact ⟨by simpa using busy, s.engine.writeReg_latch r d⟩

/-- Settles O40, by induction on the number of the host's turns: each keeps BUSY and the latch
(`StepChange.inFlight_of_host`), and completion reads the latch only. -/
theorem inFlightOperationIsIsolated : Obligations.InFlightOperationIsIsolated := by
  intro n
  induction n with
  | zero =>
    intro s rest busy schedule
    refine ⟨_, core_run_succ (step_engine_busy (mover_cons schedule) busy) 0, ?_, rfl, rfl, rfl, rfl, rfl, rfl, rfl⟩
    rw [schedule]
    rfl
  | succ n ih =>
    intro s rest busy schedule
    obtain ⟨t, ht, tail, -⟩ := step_cases s
    obtain ⟨stillBusy, key, block, mode⟩ := (stepChange_of_step ht).inFlight_of_host (mover_cons schedule) busy
    have run := ih t rest stillBusy (by rw [tail, schedule]; rfl)
    rw [core_run_succ ht]
    simpa only [SameLatch, key, block, mode] using run

/-- Settles O41, by induction on the schedule: a step takes one turn off it, and once it is empty the default agent of a
busy state is the engine, whose turn completes. -/
theorem operationEventuallyCompletes : Obligations.OperationEventuallyCompletes := by
  intro s
  induction schedule : s.schedule generalizing s with
  | nil =>
    cases busy : s.engine.busy with
    | false => exact ⟨0, s, Nat.zero_le _, core_run_zero s, busy⟩
    | true =>
      have engineMoves : mover s = .engine := by rw [mover_nil schedule, defaultAgent, busy]; rfl
      exact ⟨1, _, le_rfl, core_run_succ (step_engine_busy engineMoves busy) 0, rfl⟩
  | cons a rest ih =>
    obtain ⟨t, ht, tail, -⟩ := step_cases s
    obtain ⟨k, u, bound, run, idle⟩ := ih t (by rw [tail, schedule, List.tail_cons])
    exact ⟨k + 1, u, Nat.succ_le_succ bound, (core_run_succ ht k).trans run, idle⟩

/-! The round trip (R177). -/

/-- DES_Encrypt undoes DES_Decrypt, as `desDecrypt_desEncrypt` with the subkey pairs reversed. -/
theorem desEncrypt_desDecrypt (key block : Block) : desEncrypt key (desDecrypt key block) = block := by
  have undone := runRounds_reverse_runRounds (deriveSchedule key).toList.reverse (ip block)
  rw [List.reverse_reverse] at undone
  rw [desEncrypt, desDecrypt, ip_fp, encryptBlock, decryptBlock, undone, fp_ip]

/-- The other of the two modes. -/
def Mode.opposite : Mode → Mode
  | .enc => .dec
  | .dec => .enc

/-- An operation of the other mode under the same key gives the block back. -/
theorem desResult_opposite (m : Mode) (key block : Block) :
    desResult m.opposite key (desResult m key block) = block := by
  cases m with
  | enc => exact desDecrypt_desEncrypt key block
  | dec => exact desEncrypt_desDecrypt key block

/-- DIN is the block whose two words it holds (R74). -/
theorem EngineState.din_eq_of_words {e : EngineState} {r : Block} (hi : hiWord r = e.dinHi) (lo : loWord r = e.dinLo) :
    e.din = r := by
  rw [din, ← hi, ← lo, hiWord_append_loWord]

/-- Settles O42: each completion gives the result of the accepted KEY and DIN (`dout_after_command`), and
`desResult_opposite`. -/
theorem engineRoundTrip : Obligations.EngineRoundTrip := by
  intro i j s t u v commands sIdle ht uIdle sameKey hi lo hv
  obtain ⟨m, rfl, rfl⟩ : ∃ m : Mode, i = m.command ∧ j = m.opposite.command := by
    obtain ⟨rfl, rfl⟩ | ⟨rfl, rfl⟩ := commands
    · exact ⟨.enc, rfl, rfl⟩
    · exact ⟨.dec, rfl, rfl⟩
  obtain ⟨firstHi, firstLo⟩ := dout_after_command sIdle ht
  have loaded : u.engine.din = desResult m s.engine.key s.engine.din :=
    EngineState.din_eq_of_words (Option.some.inj (firstHi.symm.trans hi)) (Option.some.inj (firstLo.symm.trans lo))
  obtain ⟨secondHi, secondLo⟩ := dout_after_command uIdle hv
  rw [sameKey, loaded, desResult_opposite] at secondHi secondLo
  rw [secondHi, secondLo, EngineState.din, hiWord_append, loWord_append]
  exact ⟨rfl, rfl⟩

end Sys2Proof.Machine

/-! PROOFS, commands. The host's accesses to the registers (R221 to R227, R234 to R236) and what they read after reset
(R291). -/

namespace Sys2Proof.Machine

/-! Accesses that hit no register (R53, R236). -/

theorem hostAccess_read_none {off : Fin 64} (noReg : regAt off = none) (aligned : off.val % 4 = 0) (s : State) :
    hostAccess { dir := .read, off := off, bytes := 4 } s = .next (s.respond (.data 0x00000000)) := by
  have legal : accessOk off 4 = true := (accessOk_iff off 4).2 ⟨rfl, aligned⟩
  simp only [hostAccess, hostRead_legal legal, State.readOffset, noReg]

theorem hostAccess_write_none {off : Fin 64} (noReg : regAt off = none) (aligned : off.val % 4 = 0) (d : Word)
    (s : State) : hostAccess { dir := .write d, off := off, bytes := 4 } s = .next (s.respond .written) := by
  have legal : accessOk off 4 = true := (accessOk_iff off 4).2 ⟨rfl, aligned⟩
  simp only [hostAccess, hostWrite, legal, if_true, writeOffset, noReg]

/-- Settles O17: `hostAccess_write` of DOUT, `hostAccess_read` of CTRL, and no register lies from 0x20 on
(`regAt_reserved`). -/
theorem accessesWithoutEffect : Obligations.AccessesWithoutEffect := by
  intro s d off
  refine ⟨hostAccess_write (r := .doutHi) nofun d s, hostAccess_write (r := .doutLo) nofun d s,
    hostAccess_read .ctrl s, fun reserved aligned => ?_⟩
  have noReg := regAt_reserved off reserved
  exact ⟨hostAccess_read_none noReg aligned s, hostAccess_write_none noReg aligned d s⟩

/-! Reads after reset (R291). -/

@[simp] theorem EngineState.reset_statusWord : EngineState.reset.statusWord = 0x00000000 := by decide

/-- Every register of a reset engine reads 0, without a draw. -/
theorem State.readReg_reset {s : State} (h : s.engine = EngineState.reset) (r : RegName) :
    s.readReg r = (0x00000000, s) := by
  cases r <;> simp [readReg, readDout, h]

theorem hostAccess_read_reset {s : State} (h : s.engine = EngineState.reset) (r : RegName) :
    hostAccess (readAccess r) s = .next (s.respond (.data 0x00000000)) := by
  rw [hostAccess_read, State.readReg_reset h]

/-- Settles O29: an aligned offset holds a register (`hostAccess_read_reset`) or none (`hostAccess_read_none`). -/
theorem resetReadsZero : Obligations.ResetReadsZero := by
  refine ⟨rfl, rfl, fun s off h aligned => ?_⟩
  cases hr : regAt off with
  | none => exact hostAccess_read_none hr aligned s
  | some r =>
    obtain rfl := regOffset_of_regAt hr
    exact hostAccess_read_reset h r

/-! KEY, DIN and DOUT (R221 to R226). -/

/-- Settles O13: `hostAccess_read_input`, `hostAccess_read_reset`, and `State.readReg_writeReg_same`. -/
theorem inputRegistersReadBack : Obligations.InputRegistersReadBack := by
  intro s
  refine ⟨hostAccess_read .keyHi s, hostAccess_read .keyLo s, hostAccess_read .dinHi s, hostAccess_read .dinLo s,
    fun reset r _ => hostAccess_read_reset reset r, fun r d t (input : IsInputReg r) ht => ?_⟩
  cases (hostAccess_write input.ne_ctrl d s).symm.trans ht
  rw [hostAccess_read_input input, State.readReg_writeReg_same input rfl]

/-- Settles O14: `hostAccess_write` of each input register. -/
theorem inputRegisterWritesStore : Obligations.InputRegisterWritesStore := fun s d =>
  ⟨hostAccess_write (r := .keyHi) nofun d s, hostAccess_write (r := .keyLo) nofun d s,
    hostAccess_write (r := .dinHi) nofun d s, hostAccess_write (r := .dinLo) nofun d s⟩

/-- Settles O16: `hostAccess_read` of a DOUT register, by whether it is UNSPEC. -/
theorem doutReadsOrDraws : Obligations.DoutReadsOrDraws := by
  intro s
  refine ⟨fun w h => ?_, fun w h => ?_, fun h => ?_, fun h => ?_⟩
  all_goals rw [hostAccess_read, State.readReg, h]; rfl

/-! STATUS (R234, R235). -/

/-- The fields of the STATUS word, by bit (R34). -/
theorem EngineState.getLsbD_statusWord (e : EngineState) (i : Nat) :
    e.statusWord.getLsbD i =
      if i = 0 then e.busy
      else if i = 1 then e.done
      else if i = 2 then e.err
      else if i = 4 then e.errcode.getLsbD 0
      else if i = 5 then e.errcode.getLsbD 1
      else false := by
  show (0#26 ++ e.errcode ++ 0#1 ++ BitVec.ofBool e.err ++ BitVec.ofBool e.done ++ BitVec.ofBool e.busy :
    BitVec _).getLsbD i = _
  simp only [BitVec.getLsbD_append, BitVec.getLsbD_zero, BitVec.getLsbD_ofBool, Nat.sub_sub]
  by_cases field : i < 6
  · interval_cases i <;> simp
  · have noCode : e.errcode.getLsbD (i - 4) = false := BitVec.getLsbD_of_ge _ _ (by omega)
    simp [show ∀ k < 6, i ≠ k by omega, show ∀ k < 6, ¬ i - k < 1 by omega, noCode]

/-- While an operation is in flight DONE is 0 and, with no error, ERRCODE is 0b00 (R41), so STATUS reads 1 (R234). -/
theorem EngineInv.statusWord_inFlight {e : EngineState} (inv : EngineInv e) (busy : e.busy = true)
    (noError : e.err = false) : e.statusWord = 0x00000001 := by
  obtain ⟨notDone, -, -⟩ := inv.busy_dout busy
  rw [EngineState.statusWord, busy, notDone, noError, inv.err_code.1 noError]
  rfl

/-- Settles O18: `hostAccess_read` of STATUS, `EngineState.getLsbD_statusWord`, and the two examples. -/
theorem statusReadReturnsFields : Obligations.StatusReadReturnsFields := fun s =>
  ⟨hostAccess_read .status s, fun i _ => s.engine.getLsbD_statusWord i, fun h => h ▸ EngineState.reset_statusWord,
    EngineInv.statusWord_inFlight⟩

/-- Writing 1 to a bit clears its flag, as the condition of R235. -/
theorem and_not_eq_ite (flag bit : Bool) : (flag && !bit) = if bit = true then false else flag := by
  cases bit <;> simp

/-- Settles O19: `hostAccess_write` of STATUS, and the fields of `EngineState.writeStatus`. -/
theorem statusWriteClears : Obligations.StatusWriteClears := by
  intro s d
  refine ⟨_, hostAccess_write (r := .status) nofun d s, ?_, ?_, s.engine.writeStatus_errcode d,
    s.engine.writeReg_busy .status d, by simp [SameInputs, EngineState.writeReg], s.engine.writeReg_output .status d,
    s.engine.writeReg_latch .status d, rfl, rfl, rfl, rfl⟩
  · exact (s.engine.writeStatus_done d).trans (and_not_eq_ite _ _)
  · exact (s.engine.writeStatus_err d).trans (and_not_eq_ite _ _)

end Sys2Proof.Machine

/-! PROOFS, exceptions. No step stops the machine (R260, R261), and the order of the checks of one access (R266). -/

namespace Sys2Proof.Machine

/-- Settles O33: the next state that `step_cases` answers. -/
theorem stepNeverStops : Obligations.StepNeverStops := by
  intro s
  obtain ⟨t, ht, -⟩ := step_cases s
  exact ⟨t, ht⟩

/-! A legal CTRL write, by what its word decodes to: the encoding is checked before BUSY (R266). -/

theorem hostAccess_ctrl_illegal {v : Word} (h : ∃ why, decodeCmd v = .illegal why) (s : State) :
    hostAccess (writeAccess .ctrl v) s = .next ((s.respond .written).reject illegalCommand) := by
  obtain ⟨why, illegal⟩ := h
  rw [hostAccess_ctrl, ctrlWrite_of_illegal illegal]

theorem hostAccess_ctrl_encode (i : Instr) (s : State) :
    hostAccess (writeAccess .ctrl (encode i)) s = exec i (s.respond .written) := by
  rw [hostAccess_ctrl, ctrlWrite_of_command (decodeCmd_encode i)]

theorem hostAccess_ctrl_busy {s : State} (busy : s.engine.busy = true) (m : Mode) :
    hostAccess (writeAccess .ctrl (encode m.command)) s = .next ((s.respond .written).reject busyCommand) := by
  rw [hostAccess_ctrl_encode, exec_command_busy (s := s.respond .written) busy]

theorem hostAccess_ctrl_nop (s : State) :
    hostAccess (writeAccess .ctrl (encode .nop)) s = .next (s.respond .written) := by
  rw [hostAccess_ctrl_encode, exec_nop]

/-- Settles O23: a write answers one next state (`hostAccess_cases`), so each clause is the equation of its check:
the access check of `accessSucceedsExactlyWhenLegal`, then `hostAccess_ctrl_illegal`, `hostAccess_ctrl_busy` and
`hostAccess_ctrl_nop`. -/
theorem checksInOrder : Obligations.ChecksInOrder := by
  intro s off n v
  obtain ⟨t, ht, -⟩ := hostAccess_cases { dir := .write v, off := off, bytes := n } s
  have answer {u : State} (hu : hostAccess { dir := .write v, off := off, bytes := n } s = .next u) : t = u :=
    Host.Outcome.next.inj (ht.symm.trans hu)
  refine ⟨t, fun bad => ?_, ht, fun bad => ?_, ?_, ?_, ?_⟩
  · obtain ⟨read, -⟩ := (accessSucceedsExactlyWhenLegal s { dir := .read, off := off, bytes := n }).1 bad
    exact read rfl
  · obtain ⟨-, write⟩ := (accessSucceedsExactlyWhenLegal s { dir := .write v, off := off, bytes := n }).1 bad
    exact answer (write v rfl)
  · rintro rfl rfl illegal
    exact answer (hostAccess_ctrl_illegal illegal s)
  · rintro rfl rfl (rfl | rfl) busy
    · exact answer (hostAccess_ctrl_busy busy .enc)
    · exact answer (hostAccess_ctrl_busy busy .dec)
  · rintro rfl rfl rfl
    exact answer (hostAccess_ctrl_nop s)

end Sys2Proof.Machine

/-! PROOFS, reset. The reset agent's only step (R290). -/

namespace Sys2Proof.Machine

/-- Settles O28: the reset step (`step_reset`) replaces the engine by `EngineState.reset` (`State.resetEngine_engine`),
the engine of State.reset, whose fields are those listed. -/
theorem resetStep : Obligations.ResetStep := by
  intro s rest h
  have engineReset := State.resetEngine_engine { s with schedule := s.schedule.tail }
  exact ⟨_, step_reset (mover_cons h), engineReset.trans State.reset_engine.symm, engineReset⟩

end Sys2Proof.Machine

/-! PROOFS, invariant. Every change of one step keeps the engine's invariant (R41), and from the same changes when KEY,
DIN and DOUT change (R56). -/

namespace Sys2Proof.Machine

/-! The invariant under the operations of the engine (R41). -/

theorem engineInv_reset : EngineInv EngineState.reset where
  busy_dout := nofun
  idle_dout _ := ⟨rfl, rfl⟩
  err_code := ⟨fun _ => rfl, fun _ => rfl⟩
  code_legal := by decide

/-- The invariant speaks of BUSY, DONE, DOUT, ERR and ERRCODE only. -/
theorem engineInv_of_same {e f : EngineState} (inv : EngineInv e) (progress : SameProgress e f)
    (output : SameOutput e f) (error : SameError e f) : EngineInv f := by
  obtain ⟨busy, done⟩ := progress
  obtain ⟨outHi, outLo⟩ := output
  obtain ⟨err, code⟩ := error
  constructor
  · rw [busy, done, outHi, outLo]; exact inv.busy_dout
  · rw [busy, outHi, outLo]; exact inv.idle_dout
  · rw [err, code]; exact inv.err_code
  · rw [code]; exact inv.code_legal

/-- Acceptance sets BUSY with DONE = 0 and DOUT UNSPEC (R229). -/
theorem engineInv_accept {e : EngineState} (inv : EngineInv e) (m : Mode) : EngineInv (e.accept m) where
  busy_dout _ := ⟨rfl, rfl, rfl⟩
  idle_dout := nofun
  err_code := inv.err_code
  code_legal := inv.code_legal

/-- Completion clears BUSY and gives DOUT its value (R237). -/
theorem engineInv_complete {e : EngineState} (inv : EngineInv e) : EngineInv e.complete where
  busy_dout := nofun
  idle_dout _ := ⟨rfl, rfl⟩
  err_code := inv.err_code
  code_legal := inv.code_legal

/-- An error is recorded with a legal nonzero code, and ERR = 1 keeps the code that is there, which is one (R263). -/
theorem engineInv_recordError {e : EngineState} (inv : EngineInv e) {code : BitVec 2} (nonzero : code ≠ 0b00)
    (legal : code ≠ 0b11) : EngineInv (e.recordError code) := by
  have recorded : (e.recordError code).errcode ≠ 0b00 ∧ (e.recordError code).errcode ≠ 0b11 := by
    rw [EngineState.recordError_errcode]
    split
    · next error => exact ⟨fun zero => by simp [inv.err_code.2 zero] at error, inv.code_legal⟩
    · exact ⟨nonzero, legal⟩
  exact ⟨inv.busy_dout, inv.idle_dout, iff_of_false nofun recorded.1, recorded.2⟩

theorem engineInv_clearDone {e : EngineState} (inv : EngineInv e) (d : Word) : EngineInv (e.clearDone d) where
  busy_dout busy := by
    obtain ⟨notDone, unspec⟩ := inv.busy_dout busy
    exact ⟨by simp [notDone], unspec⟩
  idle_dout := inv.idle_dout
  err_code := inv.err_code
  code_legal := inv.code_legal

/-- ERR and ERRCODE are cleared together (R265). -/
theorem engineInv_clearErr {e : EngineState} (inv : EngineInv e) (d : Word) : EngineInv (e.clearErr d) := by
  have zeroLegal : (0b00 : BitVec 2) ≠ 0b11 := by decide
  unfold EngineState.clearErr
  split
  · exact ⟨inv.busy_dout, inv.idle_dout, iff_of_true rfl rfl, zeroLegal⟩
  · exact inv

theorem engineInv_writeStatus {e : EngineState} (inv : EngineInv e) (d : Word) : EngineInv (e.writeStatus d) :=
  engineInv_clearErr (engineInv_clearDone inv d) d

/-- Every change of a step keeps the invariant. -/
theorem StepChange.engineInv {s : State} {f : EngineState} (c : StepChange s f) (inv : EngineInv s.engine) :
    EngineInv f := by
  cases c with
  | none => exact inv
  | reset => exact engineInv_reset
  | complete => exact engineInv_complete inv
  | accept m => exact engineInv_accept inv m
  | rejectBusy | rejectIllegal => exact engineInv_recordError inv (by decide) (by decide)
  | writeStatus d => exact engineInv_writeStatus inv d
  | writeData r d _ _ notStatus =>
    exact engineInv_of_same inv (s.engine.writeReg_progress notStatus d) (s.engine.writeReg_output r d)
      (s.engine.writeReg_error notStatus d)

/-- Settles O32: a step makes one of the changes of `StepChange`, and each keeps the invariant. -/
theorem stepKeepsEngineInvariant : Obligations.StepKeepsEngineInvariant :=
  fun _ _ inv h => (stepChange_of_step h).engineInv inv

/-- Settles O31, by the values of `EngineState.reset`. -/
theorem resetKeepsEngineInvariant : Obligations.ResetKeepsEngineInvariant :=
  engineInv_reset

/-! KEY, DIN and DOUT (R56). -/

/-- A write of any other register leaves KEY and DIN. -/
theorem EngineState.writeReg_inputs {r : RegName} (h : ¬ IsInputReg r) (e : EngineState) (d : Word) :
    SameInputs e (e.writeReg r d) := by
  cases r with
  | keyHi | keyLo | dinHi | dinLo => simp [IsInputReg] at h
  | doutHi | doutLo | ctrl | status => simp [SameInputs, writeReg]

/-- KEY and DIN are changed by reset and by a write of one of their registers. -/
theorem StepChange.of_inputs_changed {s : State} {f : EngineState} (c : StepChange s f)
    (changed : ¬ SameInputs s.engine f) : mover s = .reset ∨ ∃ r d, IsInputReg r ∧ HostWrites s r d := by
  cases c with
  | reset hm => exact .inl hm
  | writeData r d hw =>
    have input : IsInputReg r := by
      by_contra other
      exact changed (s.engine.writeReg_inputs other d)
    exact .inr ⟨r, d, input, hw⟩
  | none | complete | accept | rejectBusy | rejectIllegal | writeStatus => exact absurd (by simp [SameInputs]) changed

/-- DOUT is changed by reset, by completion and by acceptance. -/
theorem StepChange.of_output_changed {s : State} {f : EngineState} (c : StepChange s f)
    (changed : ¬ SameOutput s.engine f) :
    mover s = .reset ∨ mover s = .engine ∧ s.engine.busy = true ∨
      s.engine.busy = false ∧ ∃ m : Mode, HostWrites s .ctrl m.word := by
  cases c with
  | reset hm => exact .inl hm
  | complete hm hb => exact .inr (.inl ⟨hm, hb⟩)
  | accept m hw hb => exact .inr (.inr ⟨hb, m, hw⟩)
  | writeData r d => exact absurd (s.engine.writeReg_output r d) changed
  | none | rejectBusy | rejectIllegal | writeStatus => exact absurd (by simp [SameOutput]) changed

/-- Settles O38: `StepChange.of_inputs_changed`, with `readReg_of_hostWrites` for the word the register then reads as, and
`StepChange.of_output_changed`. -/
theorem dataRegistersChangeOnlyAsStated : Obligations.DataRegistersChangeOnlyAsStated := by
  intro s t h
  have c := stepChange_of_step h
  constructor
  · intro changed
    obtain reset | ⟨r, d, input, hw⟩ := c.of_inputs_changed changed
    · exact .inl reset
    · exact .inr ⟨r, d, input, hw, readReg_of_hostWrites input hw h⟩
  · intro changed
    obtain reset | completed | ⟨idle, m, hw⟩ := c.of_output_changed changed
    · exact .inl reset
    · exact .inr (.inl completed)
    · exact .inr (.inr ⟨idle, hostWrites_ctrl_word hw⟩)

/-! The first error (R263, R264). -/

/-- The second of two errors leaves the code of the first. -/
theorem EngineState.recordError_recordError_errcode (e : EngineState) (c d : BitVec 2) :
    ((e.recordError c).recordError d).errcode = (e.recordError c).errcode :=
  (e.recordError c).recordError_errcode d

/-- Settles O24: the fields of `EngineState.recordError`, by whether ERR was 0. -/
theorem firstErrorWins : Obligations.FirstErrorWins := by
  intro e c d
  exact ⟨e.recordError_err c, fun noError => by simp [noError], fun error => by simp [error],
    e.recordError_recordError_errcode c d, ⟨rfl, rfl⟩, ⟨rfl, rfl⟩, ⟨rfl, rfl, rfl, rfl⟩, ⟨rfl, rfl, rfl⟩⟩

end Sys2Proof.Machine

/-! PROOFS, function. The swap networks that realise IP and IP^-1 (R105, R106), the masks of the combined tables (R139),
and what combining the lookups by XOR or by addition gives (R155). -/

namespace Sys2Proof.Machine

/-! The networks: each is linear over GF(2), and so is a permutation. -/

theorem ipNet_xor (u v : Block) : ipNet (u ^^^ v) = ipNet u ^^^ ipNet v := by
  simp only [ipNet, hiWord_xor, loWord_xor, swapBits_xor, ← BitVec.xor_append]

theorem fpNet_xor (u v : Block) : fpNet (u ^^^ v) = fpNet u ^^^ fpNet v := by
  simp only [fpNet, hiWord_xor, loWord_xor, swapBits_xor, ← BitVec.xor_append]

theorem ipNet_twoPow : ∀ i < 64, ipNet (BitVec.twoPow 64 i) = ip (BitVec.twoPow 64 i) := by
  decide +kernel

theorem fpNet_twoPow : ∀ i < 64, fpNet (BitVec.twoPow 64 i) = fp (BitVec.twoPow 64 i) := by
  decide +kernel

/-- Settles O45: both sides are linear, and they agree on the 64 unit vectors. -/
theorem butterflyNetworksRealisePermutations : Obligations.ButterflyNetworksRealisePermutations := fun v =>
  ⟨eq_of_linear ipNet_xor (permute_xor ipTable) ipNet_twoPow v,
    eq_of_linear fpNet_xor (permute_xor fpTable) fpNet_twoPow v⟩

/-! The masks. -/

theorem sp_and_not_spMask : ∀ (t : Fin 8) (x : Group6), sp t x &&& ~~~spMask t = 0 := by
  decide +kernel

theorem cpop_sp : ∀ (t : Fin 8) (x : Group6), (sp t x).cpop.toNat = (sBox t x).cpop.toNat := by
  decide +kernel

theorem cpop_spMask : ∀ t : Fin 8, (spMask t).cpop = 4 := by
  decide +kernel

theorem spMask_and_spMask : ∀ t u : Fin 8, t ≠ u → spMask t &&& spMask u = 0 := by
  decide

/-- Settles O47: the four facts about the literal words, each by evaluating every entry or mask. -/
theorem tableMasks : Obligations.TableMasks :=
  ⟨fun t x => ⟨sp_and_not_spMask t x, cpop_sp t x⟩, cpop_spMask, spMask_and_spMask, by decide⟩

/-! Words without a common 1 bit. -/

theorem and_eq_zero_iff_bits {n : Nat} {a b : BitVec n} :
    a &&& b = 0 ↔ ∀ i < n, (a.getLsbD i && b.getLsbD i) = false := by
  constructor
  · intro h i _
    rw [← BitVec.getLsbD_and, h]
    exact BitVec.getLsbD_zero
  · intro bits
    apply BitVec.eq_of_getLsbD_eq
    intro i hi
    rw [BitVec.getLsbD_and, bits i hi]
    exact BitVec.getLsbD_zero.symm

/-- Words that lie in disjoint masks have no common 1 bit. -/
theorem and_eq_zero_of_masks {n : Nat} {a b m k : BitVec n} (ha : a &&& ~~~m = 0) (hb : b &&& ~~~k = 0)
    (disjoint : m &&& k = 0) : a &&& b = 0 := by
  rw [and_eq_zero_iff_bits] at *
  intro i hi
  have inA := ha i hi
  have inB := hb i hi
  have apart := disjoint i hi
  rw [BitVec.getLsbD_not, decide_eq_true hi, Bool.true_and] at inA inB
  revert inA inB apart
  generalize a.getLsbD i = a, b.getLsbD i = b, m.getLsbD i = m, k.getLsbD i = k
  revert a b m k
  decide

theorem xor_eq_or_of_and_eq_zero {n : Nat} (a b : BitVec n) (h : a &&& b = 0) : a ^^^ b = a ||| b := by
  apply BitVec.eq_of_getLsbD_eq
  intro i hi
  have apart := and_eq_zero_iff_bits.1 h i hi
  rw [BitVec.getLsbD_xor, BitVec.getLsbD_or]
  revert apart
  cases a.getLsbD i <;> cases b.getLsbD i <;> decide

/-- An operation that is OR on words without a common 1 bit is OR on any list of words of which no two have one, from a
start that has none with them. -/
theorem foldl_eq_foldl_or {n : Nat} {op : BitVec n → BitVec n → BitVec n}
    (hop : ∀ a b, a &&& b = 0 → op a b = a ||| b) (words : List (BitVec n)) (start : BitVec n)
    (apart : words.Pairwise fun a b => a &&& b = 0) (fresh : ∀ a ∈ words, start &&& a = 0) :
    words.foldl op start = words.foldl (· ||| ·) start := by
  induction words generalizing start with
  | nil => rfl
  | cons w rest ih =>
    obtain ⟨wApart, restApart⟩ := List.pairwise_cons.1 apart
    obtain ⟨wFresh, restFresh⟩ := List.forall_mem_cons.1 fresh
    rw [List.foldl_cons, List.foldl_cons, hop start w wFresh]
    refine ih (start ||| w) restApart fun a ha => ?_
    rw [BitVec.and_or_distrib_right, restFresh a ha, wApart a ha]
    exact BitVec.or_zero

/-! The lookups (R155). -/

theorem sp_and_sp {t u : Fin 8} (h : t ≠ u) (x y : Group6) : sp t x &&& sp u y = 0 :=
  and_eq_zero_of_masks (sp_and_not_spMask t x) (sp_and_not_spMask u y) (spMask_and_spMask t u h)

/-- The eight lookups of a round, in the order of their tables. -/
def lookups (r : Word) (kp : SubkeyPair) : List Word := (List.finRange 8).map (lookup r kp)

theorem lookups_pairwise_and (r : Word) (kp : SubkeyPair) : (lookups r kp).Pairwise fun a b => a &&& b = 0 :=
  List.pairwise_map.2 ((List.nodup_finRange 8).imp fun h => sp_and_sp h _ _)

theorem roundOutput_eq_foldl_or (r : Word) (kp : SubkeyPair) : roundOutput r kp = (lookups r kp).foldl (· ||| ·) 0 := by
  rw [lookups, List.foldl_map]
  show _ = 0#32 ||| lookup r kp 0 ||| _ ||| _ ||| _ ||| _ ||| _ ||| _ ||| _
  rw [BitVec.zero_or]
  rfl

/-- The lookups combine alike by every operation that is OR on words without a common 1 bit. -/
theorem roundOutput_eq_foldl {op : Word → Word → Word} (hop : ∀ a b, a &&& b = 0 → op a b = a ||| b) (r : Word)
    (kp : SubkeyPair) : roundOutput r kp = (lookups r kp).foldl op 0 := by
  rw [foldl_eq_foldl_or hop (lookups r kp) 0 (lookups_pairwise_and r kp) fun a _ => BitVec.zero_and,
    roundOutput_eq_foldl_or]

/-- Settles O50: no two lookups have a common 1 bit (`lookups_pairwise_and`), where XOR and addition are OR. -/
theorem lookupsCombineAlike : Obligations.LookupsCombineAlike := fun r kp =>
  ⟨roundOutput_eq_foldl xor_eq_or_of_and_eq_zero r kp, roundOutput_eq_foldl BitVec.add_eq_or_of_and_eq_zero r kp⟩

end Sys2Proof.Machine

/-! PROOFS, function. The complement of the round's operands (R156) and the round trip (R177). -/

namespace Sys2Proof.Machine

/-- Settles O51: the two complements cancel where `f` combines its operands. -/
theorem roundComplement : Obligations.RoundComplement :=
  fRound_not_not

/-- Settles O52: DECRYPT runs ENCRYPT's rounds with the pairs reversed, and either list of pairs undoes the other
(`runRounds_reverse_runRounds`). -/
theorem cipherRoundTrip : Obligations.CipherRoundTrip := fun key block =>
  ⟨desDecrypt_desEncrypt key block, desEncrypt_desDecrypt key block⟩

end Sys2Proof.Machine

/-! PROOFS, key schedule. The schedule reads the key through PC1 only (R190, R201), and its rotations add up to one turn
of the halves and can be undone (R193 to R195, R200). -/

namespace Sys2Proof.Machine

/-! Keys with the same selected bits (R190). -/

theorem permute_congr {m n : Nat} (T : Vector Nat m) {u v : BitVec n}
    (h : ∀ i : Fin m, stdBit u (T.get i) = stdBit v (T.get i)) : permute T u = permute T v := by
  rw [permute, permute, funext h]

/-- PC1 names no parity bit: bits 0, 8, ..., 56 are the standard bits 64, 56, ..., 8 (R190, R191). -/
theorem pc1Table_skips_parity : ∀ i : Fin 56, 64 - pc1Table.get i < 64 ∧ (64 - pc1Table.get i) % 8 ≠ 0 := by
  decide

theorem pc1_eq_of_same_key_bits {k l : Block} (h : ∀ i < 64, i % 8 ≠ 0 → k.getLsbD i = l.getLsbD i) :
    pc1 k = pc1 l := by
  refine permute_congr pc1Table fun i => ?_
  obtain ⟨inBlock, notParity⟩ := pc1Table_skips_parity i
  exact h _ inBlock notParity

theorem cHalf_congr {k l : Block} (h : pc1 k = pc1 l) (i : Nat) : cHalf k i = cHalf l i := by
  induction i with
  | zero => rw [cHalf, h, cHalf]
  | succ i ih => rw [cHalf_succ, ih, cHalf_succ]

theorem dHalf_congr {k l : Block} (h : pc1 k = pc1 l) (i : Nat) : dHalf k i = dHalf l i := by
  induction i with
  | zero => rw [dHalf, h, dHalf]
  | succ i ih => rw [dHalf_succ, ih, dHalf_succ]

theorem roundKey_congr {k l : Block} (h : pc1 k = pc1 l) (i : Nat) : roundKey k i = roundKey l i := by
  rw [roundKey, cHalf_congr h, dHalf_congr h, roundKey]

theorem deriveSchedule_congr {k l : Block} (h : pc1 k = pc1 l) : deriveSchedule k = deriveSchedule l := by
  simp only [deriveSchedule, roundKey_congr h]

/-- Settles O55: PC1 drops the parity bits (`pc1Table_skips_parity`), and the schedule, which is all of the key that the
block functions read, follows from PC1 of the key. -/
theorem parityBitsIgnored : Obligations.ParityBitsIgnored := by
  intro k l h
  have schedules := deriveSchedule_congr (pc1_eq_of_same_key_bits h)
  refine ⟨schedules, fun b => ?_⟩
  rw [desEncrypt, desDecrypt, schedules]
  exact ⟨rfl, rfl⟩

/-! Keys whose selected bits are all alike (R201). -/

@[simp] theorem rotl_zero {n : Nat} (s : Nat) : rotl (0#n) s = 0#n := by
  simp [rotl]

theorem cHalf_of_pc1_zero {key : Block} (h : pc1 key = 0) (i : Nat) : cHalf key i = 0 := by
  induction i with
  | zero => rw [cHalf, h]; rfl
  | succ i ih => rw [cHalf_succ, ih]; exact rotl_zero _

theorem dHalf_of_pc1_zero {key : Block} (h : pc1 key = 0) (i : Nat) : dHalf key i = 0 := by
  induction i with
  | zero => rw [dHalf, h]; rfl
  | succ i ih => rw [dHalf_succ, ih]; exact rotl_zero _

theorem roundKey_of_pc1_zero {key : Block} (h : pc1 key = 0) (i : Nat) : roundKey key i = 0 := by
  rw [roundKey, cHalf_of_pc1_zero h, dHalf_of_pc1_zero h]
  exact permute_zero pc2Table

/-- The complemented key has selected bits all 0, and the complemented subkeys. -/
theorem roundKey_of_pc1_ones {key : Block} (h : pc1 key = 0xFFFFFFFFFFFFFF) (i : Nat) :
    roundKey key i = 0xFFFFFFFFFFFF := by
  have selected : pc1 (~~~key) = 0 := by rw [pc1_not, h]; rfl
  have complement := roundKey_not key i
  rw [roundKey_of_pc1_zero selected] at complement
  rw [← BitVec.not_not (b := roundKey key i), ← complement]
  rfl

theorem pc1_ones : pc1 0xFFFFFFFFFFFFFFFF = 0xFFFFFFFFFFFFFF := by
  decide +kernel

/-- A schedule whose subkeys are all `k` has the pair of `k` only (R199). -/
theorem eq_pack_of_mem_deriveSchedule {key : Block} {k : Subkey} (h : ∀ i, roundKey key i = k) :
    ∀ p ∈ (deriveSchedule key).toList, p = pack k := by
  simp [deriveSchedule_toList, h]

/-- Settles O58: `roundKey_of_pc1_zero`, its complement `roundKey_of_pc1_ones`, and the pairs of the two subkeys. -/
theorem weakKeySchedules : Obligations.WeakKeySchedules := by
  refine ⟨fun key zeros => ⟨fun i _ _ => roundKey_of_pc1_zero zeros i, ?_⟩,
    fun key ones => ⟨fun i _ _ => roundKey_of_pc1_ones ones i, ?_⟩, permute_zero pc1Table, pc1_ones⟩
  · exact eq_pack_of_mem_deriveSchedule (roundKey_of_pc1_zero zeros)
  · exact eq_pack_of_mem_deriveSchedule (roundKey_of_pc1_ones ones)

/-! Rotations of rotations (R17, R194, R195). -/

/-- A left rotation by at most the width, as the bit of whichever of the two shifted values covers the place. -/
theorem getLsbD_rotl_eq_ite {n : Nat} (v : BitVec n) {s i : Nat} (hs : s ≤ n) (hi : i < n) :
    (rotl v s).getLsbD i = if i < s then v.getLsbD (n - s + i) else v.getLsbD (i - s) := by
  by_cases wrapped : i < s
  · simp [rotl, wrapped]
  · have above : v.getLsbD (n - s + i) = false := BitVec.getLsbD_of_ge v _ (by omega)
    rw [if_neg wrapped]
    simp only [rotl, BitVec.getLsbD_or, BitVec.getLsbD_shiftLeft, BitVec.getLsbD_ushiftRight, above]
    simp [wrapped, hi]

/-- Rotations add up, as long as they do not pass the width. -/
theorem rotl_rotl {n : Nat} (v : BitVec n) {a b : Nat} (h : a + b ≤ n) : rotl (rotl v a) b = rotl v (a + b) := by
  apply BitVec.eq_of_getLsbD_eq
  intro i hi
  rw [getLsbD_rotl_eq_ite _ (by omega) hi, getLsbD_rotl_eq_ite _ h hi]
  by_cases wrappedByB : i < b
  · rw [if_pos wrappedByB, if_pos (by omega), getLsbD_rotl_eq_ite _ (by omega) (by omega), if_neg (by omega)]
    congr 1
    omega
  · rw [if_neg wrappedByB, getLsbD_rotl_eq_ite _ (by omega) (by omega)]
    by_cases wrappedByA : i - b < a
    · rw [if_pos wrappedByA, if_pos (by omega)]
      congr 1
      omega
    · rw [if_neg wrappedByA, if_neg (by omega), Nat.sub_sub, Nat.add_comm b a]

theorem rotl_no_places {n : Nat} (v : BitVec n) : rotl v 0 = v := by
  rw [rotl, Nat.sub_zero, BitVec.shiftLeft_zero, BitVec.ushiftRight_eq_zero le_rfl]
  exact BitVec.or_zero

/-- A rotation by the width is no rotation. -/
theorem rotl_width {n : Nat} (v : BitVec n) : rotl v n = v := by
  simp [rotl]

/-- A right rotation undoes the left rotation by the same amount. -/
theorem rotr_rotl {n : Nat} (v : BitVec n) {s : Nat} (h : s ≤ n) : rotr (rotl v s) s = v := by
  rw [rotr, rotl_rotl v (by omega), Nat.add_sub_cancel' h, rotl_width]

/-! The amounts (R193). -/

theorem rotationAmount_eq : ∀ i < 17, 1 ≤ i →
    rotationAmount i = if i = 1 ∨ i = 2 ∨ i = 9 ∨ i = 16 then 1 else 2 := by
  decide

/-- The sum of the amounts of rounds 1 to `i`. -/
def rotationTotal (i : Nat) : Nat := ((List.range (i + 1)).map rotationAmount).sum

theorem rotationTotal_zero : rotationTotal 0 = 0 := rfl

theorem rotationTotal_succ (i : Nat) : rotationTotal (i + 1) = rotationTotal i + rotationAmount (i + 1) := by
  rw [rotationTotal, List.range_succ, List.map_append, List.sum_append, List.map_singleton, List.sum_singleton,
    rotationTotal]

/-- The amounts of all rounds add up to the width of a half (R195). -/
theorem rotationTotal_sixteen : rotationTotal 16 = 28 := rfl

theorem rotationTotal_le {i : Nat} (h : i ≤ 16) : rotationTotal i ≤ 28 := by
  have bound : ∀ i < 17, rotationTotal i ≤ 28 := by decide
  exact bound i (by omega)

/-! The halves. C and D follow one rule, so each law is said once, of any half that follows it. -/

section

variable {half : Nat → KeyHalf} (succ : ∀ i, half (i + 1) = rotl (half i) (rotationAmount (i + 1)))
include succ

theorem half_eq_rotl_pred {i : Nat} (h : 1 ≤ i) : half i = rotl (half (i - 1)) (rotationAmount i) := by
  obtain ⟨i, rfl⟩ := Nat.exists_eq_add_of_le' h
  exact succ i

theorem half_eq_rotl_rotationTotal {i : Nat} (h : i ≤ 16) : half i = rotl (half 0) (rotationTotal i) := by
  induction i with
  | zero => rw [rotationTotal_zero, rotl_no_places]
  | succ i ih =>
    have inTurn := rotationTotal_le h
    rw [rotationTotal_succ] at inTurn ⊢
    rw [succ, ih (by omega), rotl_rotl _ inTurn]

theorem half_sixteen : half 16 = half 0 := by
  rw [half_eq_rotl_rotationTotal succ le_rfl, rotationTotal_sixteen, rotl_width]

theorem half_eq_rotr_succ {i : Nat} (h : i < 16) : half i = rotr (half (i + 1)) (rotationAmount (i + 1)) := by
  have inTurn := rotationTotal_le (i := i + 1) h
  rw [rotationTotal_succ] at inTurn
  rw [succ, rotr_rotl _ (by omega)]

end

/-- Settles O56: `half_eq_rotl_rotationTotal` and `half_sixteen`, for C and for D. -/
theorem rotationsAccumulateAndWrap : Obligations.RotationsAccumulateAndWrap :=
  ⟨fun i h1 h16 => rotationAmount_eq i (by omega) h1, fun key =>
    ⟨fun _ h1 _ => ⟨half_eq_rotl_pred (cHalf_succ key) h1, half_eq_rotl_pred (dHalf_succ key) h1⟩,
      fun _ h15 => ⟨half_eq_rotl_rotationTotal (cHalf_succ key) (by omega),
        half_eq_rotl_rotationTotal (dHalf_succ key) (by omega)⟩,
      half_sixteen (cHalf_succ key), half_sixteen (dHalf_succ key)⟩⟩

/-- Settles O57: `half_eq_rotr_succ`, for C and for D. -/
theorem scheduleRunsBackwards : Obligations.ScheduleRunsBackwards := by
  intro key j h2 h16
  rw [show 18 - j = 17 - j + 1 by omega]
  exact ⟨half_eq_rotr_succ (cHalf_succ key) (by omega), half_eq_rotr_succ (dHalf_succ key) (by omega)⟩

end Sys2Proof.Machine
